-- ==== Sys2Proof/Word.lean ====
section
/-! DEFINITION. The two word types of the MC6809E: the 8-bit byte of the data bus and the accumulators,
and the 16-bit word of the address bus and the pointer registers (spec 00_scope.md R5). -/

namespace Sys2Proof

/-- An 8-bit value: a memory byte, A, B, DP (R5, R60). -/
abbrev Byte := BitVec 8

/-- A 16-bit value: an address, X, Y, U, S, PC, D (R5). -/
abbrev Word := BitVec 16

end Sys2Proof
end

