-- ==== Sys2Proof/Config.lean ====
section
/-! DEFINITION. The values the spec leaves open: constants with no body, so that nothing can be proved of
them and a claim holds whatever they are. A draw is one of the functions below applied to the counter
`State.draws`, which every draw advances (spec 00_scope.md R14). -/

namespace Sys2Proof.Config

/-- `undef_bit()` of R14: the `n`-th free bit (H after subtract-like instructions, ASL and ASR; V after DAA
and SEX; the flags RESET leaves unspecified). Log entries 3 and 4. Safe. -/
opaque undefBit (n : Nat) : Bool

/-- The `n`-th free byte: A and B after the RESET sequence (R44, D7). Log entry 3. Safe. -/
opaque undefByte (n : Nat) : Byte

/-- The `n`-th free word: X, Y, U and S after the RESET sequence (R44, D7). Log entry 3. Safe. -/
opaque undefWord (n : Nat) : Word

/-- Whether the `n`-th too short pulse on an unmasked FIRQ or IRQ line that ends the Sync state is also taken
as an interrupt: both outcomes are allowed (R448, D18). Log entry 8. Safe. -/
opaque briefPulseTaken (n : Nat) : Bool

/-- For what an access reads a byte: for the bytes of the instruction, for the address that an indirect operand
holds, or as data (operands, pulled bytes, vectors). -/
inductive Access where
  | fetch | pointer | data
deriving DecidableEq, Repr

/-- What the platform answers to a read of an address where no memory lies, in the step of that number (R62, R74,
D1). A step that fetches fewer than 65,533 prebytes reads no address twice for the same purpose, so in any one run every
behaviour of a device, reads with side effects among them, is some such function. That the answer is no function of the
bytes that the MPU wrote to the device before is the model's choice, DESIGN CHOICE, which the spec leaves to the
platform: two runs that differ only in a byte stored to a device read the same answers. Log entry 35: safe for a claim
about one run, unsafe for a claim that compares runs. -/
opaque platformRead (k : Access) (time : Nat) (a : Word) : Byte

/-- The parameter `nmi_latched_while_disarmed` of D10: whether a falling edge of NMI that comes before the
first load of S is remembered. Log entry 6. Safe. -/
opaque nmiLatchedWhileDisarmed : Bool

end Sys2Proof.Config
end

