-- ==== Sys2Proof/Machine/Bits.lean ====
section
/-! DEFINITION. Byte order and sign extension (spec 00_scope.md R7, 20_memory.md R63). -/

namespace Sys2Proof.Machine

/-- `hi:lo`, the more significant byte first (R7, R63). -/
def wordOf (hi lo : Byte) : Word := hi ++ lo

/-- `v[15:8]` (R7). -/
def hiByte (v : Word) : Byte := v.extractLsb' 8 8

/-- `v[7:0]` (R7). -/
def loByte (v : Word) : Byte := v.extractLsb' 0 8

/-- `sext_16` of a byte (R7). -/
def sext8 (v : Byte) : Word := v.signExtend 16

/-- `sext_16` of the 5-bit offset of an indexed postbyte (R7, R101). -/
def sext5 (v : BitVec 5) : Word := v.signExtend 16

/-- `zext_16` of a byte (R7). -/
def zext8 (v : Byte) : Word := v.setWidth 16

end Sys2Proof.Machine
end

