-- ==== Sys2Proof/Machine/Memory.lean ====
section
/-! DEFINITION. The 64K-byte memory (spec 20_memory.md R60) as a list of cells in one canonical form: addresses
strictly rising and below 65,536, no cell equal to what an unlisted address reads as. -/

namespace Sys2Proof.Machine

/-- Memory as listed cells; every address not listed reads as `Memory.unlisted`. -/
abbrev Memory := List Host.Cell

/-- What an address with no cell reads as: `$00`. DESIGN CHOICE, unsafe: the spec gives no power-on contents
(R492); its test vectors take unlisted bytes to hold 00 (95_test_vectors.md section 1). Log entry 1. -/
def Memory.unlisted : Byte := 0x00#8

/-- The byte at a cell number. -/
def Memory.get : Memory → Nat → Byte
  | [], _ => Memory.unlisted
  | (k, v) :: rest, a => if k = a then v else Memory.get rest a

/-- The memory without any cell of that number. -/
def Memory.erase : Memory → Nat → Memory
  | [], _ => []
  | (k, v) :: rest, a => if k = a then Memory.erase rest a else (k, v) :: Memory.erase rest a

/-- The memory with one more cell, in its place by address. -/
def Memory.insert : Memory → Nat → Byte → Memory
  | [], a, w => [(a, w)]
  | (k, v) :: rest, a, w =>
    if a < k then (a, w) :: (k, v) :: rest else (k, v) :: Memory.insert rest a w

/-- The memory with the byte at a cell number set; writing the unlisted value removes the cell. -/
def Memory.set (m : Memory) (a : Nat) (v : Byte) : Memory :=
  if v = Memory.unlisted then Memory.erase m a else Memory.insert (Memory.erase m a) a v

/-- `MemRead(addr, 1)` (R62). -/
def Memory.read (m : Memory) (a : Word) : Byte := Memory.get m a.toNat

/-- `MemWrite(addr, 1, v)` (R62). -/
def Memory.write (m : Memory) (a : Word) (v : Byte) : Memory := Memory.set m a.toNat v

/-- `MemRead(addr, 2)`: the high byte at `addr`, the low byte at `addr + 1` modulo 2^16 (R63, R66). -/
def Memory.read16 (m : Memory) (a : Word) : Word := wordOf (Memory.read m a) (Memory.read m (a + 1#16))

/-- Bytes at rising addresses from `a`, modulo 2^16. -/
def Memory.writeAll : Memory → Word → List Byte → Memory
  | m, _, [] => m
  | m, a, v :: rest => Memory.writeAll (Memory.write m a v) (a + 1#16) rest

/-- Is the list strictly rising from above `lo`, inside the address space, with no unlisted value in it? -/
def Memory.wfFrom : Nat → Memory → Bool
  | _, [] => true
  | lo, (k, v) :: rest =>
    decide (lo ≤ k) && decide (k < 65536) && !(v == Memory.unlisted) && Memory.wfFrom (k + 1) rest

/-- The canonical form of a memory. -/
def Memory.wf (m : Memory) : Bool := Memory.wfFrom 0 m

end Sys2Proof.Machine
end

