-- ==== Sys2Proof/Machine/State.lean ====
section
/-! DEFINITION. The state of the MC6809E (spec 10_state.md), the reasons a step can stop, and the state right
after reset (R44). The chip has no debug unit, so State has no field for one (R468). -/

namespace Sys2Proof.Machine

/-- The condition code register, one field per bit, bit 7 (E) first (R28). It has no reserved bit, so the eight
fields are the whole register; `CC.toByte` and `CC.ofByte` of Flags.lean are its byte. Log entry 24. -/
structure CC where
  /-- Bit 7: the entire state was stacked (R36). -/
  e : Bool
  /-- Bit 6: FIRQ mask (R35). -/
  f : Bool
  /-- Bit 5: half carry (R34). -/
  h : Bool
  /-- Bit 4: IRQ mask (R33). -/
  i : Bool
  /-- Bit 3: negative (R32). -/
  n : Bool
  /-- Bit 2: zero (R31). -/
  z : Bool
  /-- Bit 1: overflow (R30). -/
  v : Bool
  /-- Bit 0: carry or borrow (R29). -/
  c : Bool
deriving DecidableEq, Repr

/-- The five run states of R42. -/
inductive RunState where
  | running | sync | cwaiWait | halted | inReset
deriving DecidableEq, Repr

/-- The input lines as the processor sees them at one instruction boundary or in one step of a wait
(R433, D12, D15). `true` means active: the line is low. -/
structure Sample where
  /-- RESET is low (R490). -/
  reset : Bool
  /-- HALT is low (R460). -/
  halt : Bool
  /-- A falling edge of NMI has come since the sample before (R40, R432). -/
  nmiEdge : Bool
  /-- FIRQ is low (R41). -/
  firq : Bool
  /-- IRQ is low (R41). -/
  irq : Bool
  /-- The low level of FIRQ is too short to be sure to be taken out of the Sync state (R448, D18). -/
  firqBrief : Bool
  /-- The same for IRQ (R448, D18). -/
  irqBrief : Bool
deriving DecidableEq, Repr

/-- No line active. -/
def Sample.quiet : Sample :=
  { reset := false, halt := false, nmiEdge := false, firq := false, irq := false,
    firqBrief := false, irqBrief := false }

/-- What answers at an address (R62, R74, D1). -/
inductive CellKind where
  /-- A read returns the last byte written. -/
  | ram
  /-- A read returns the byte that was loaded; a write changes nothing. -/
  | rom
  /-- A device register or nothing at all: a read returns what the platform answers, a write is the platform's. -/
  | device
deriving DecidableEq, Repr

/-- So many addresses from a base on, modulo 2^16, with what answers there. -/
structure Region where
  /-- The first address. -/
  base : Word
  /-- How many addresses. -/
  size : Nat
  /-- What answers there. -/
  kind : CellKind
deriving DecidableEq, Repr

/-- The parameter `nmi_arm_set` (R39, D9): which instructions are a program load of S. -/
inductive NmiArmSet where
  /-- LDS, LEAS, TFR and EXG into S, PULU with the S bit: the spec's default. -/
  | wide
  /-- LDS alone. -/
  | ldsOnly
deriving DecidableEq, Repr

/-- The parameters that a model takes as arguments and that have a default (00_scope.md section 4, the table of
92_eei_decisions.md). They are fixed for the machine: no step changes them. Log entries 7 and 35. -/
structure Platform where
  /-- `Platform.mem`: the first region that covers an address says what answers there, RAM where none does (D1). -/
  regions : List Region
  /-- `nmi_arm_set` (D9). -/
  nmiArmSet : NmiArmSet
deriving DecidableEq, Repr

/-- The defaults of 92_eei_decisions.md: 64 KiB of RAM (D1), the wide set (D9). -/
def Platform.standard : Platform := { regions := [], nmiArmSet := .wide }

/-- Everything the spec gives the machine, as plain data. -/
structure State where
  /-- Accumulator A (R20); the high byte of D (R21). -/
  a : Byte
  /-- Accumulator B (R20); the low byte of D (R21). -/
  b : Byte
  /-- Index register X (R22). -/
  x : Word
  /-- Index register Y (R22). -/
  y : Word
  /-- User stack pointer U (R23). -/
  u : Word
  /-- Hardware stack pointer S: the address of the last byte pushed (R23, R24). -/
  s : Word
  /-- Program counter (R25). -/
  pc : Word
  /-- Direct page register (R27). -/
  dp : Byte
  /-- Condition code register (R28). -/
  cc : CC
  /-- The NMI arming latch `nmi_armed` (R39). -/
  nmiArmed : Bool
  /-- The NMI pending latch `nmi_pending` (R40). -/
  nmiPending : Bool
  /-- The run state (R42). -/
  run : RunState
  /-- Was the Halted state entered from RESET, with no instruction done since (R460, R490)? LIC tells it from a halt
  at the end of an instruction (R472). -/
  resetHalt : Bool
  /-- The bytes that the memory of the 64K space holds (R60). -/
  mem : Memory
  /-- The parameters of the platform (R5, R62). -/
  platform : Platform
  /-- The model's own: how many steps were begun, the time of a read that the platform answers. Log entry 35. -/
  busTime : Nat
  /-- The model's own: the samples of the input lines still to come, the next one first; when none is left the
  lines stay inactive (D12). Log entry 5. -/
  inputs : List Sample
  /-- The model's own: how many free values have been drawn (R14). Log entry 4. -/
  draws : Nat
deriving DecidableEq, Repr

/-- Why the machine stops without a next state. The chip itself has no fault (R430). -/
inductive Fault where
  /-- All 65,536 bytes of memory are prebytes, so that the fetch of R92 skips bytes for ever and no instruction
  starts. Raised by the step's fetch. Safe: the chip would go on fetching and change nothing. Log entry 21. -/
  | endlessPrebytes
deriving DecidableEq, Repr

/-- Why the model gives a step no meaning. -/
inductive Refusal where
  /-- An instruction whose arm in `exec` is not written. Raised by no arm of this model. Safe. -/
  | notModelled (mnemonic : String)
  /-- An opcode that its page does not define: "undefined and illegal" (R125, R126). Raised by the fetch. Safe. -/
  | unusedOpcode
  /-- An indexed postbyte without a meaning (R116). Raised by the fetch. Safe. -/
  | undefinedPostbyte
  /-- TFR or EXG of an undefined code or of registers of unlike size: "undefined and INVALID" (R120). Raised by
  the fetch, and by TFR and EXG on an ill-formed term. Safe. -/
  | invalidRegisterPair
  /-- HALT is low in the Sync or CwaiWait state, which the spec does not describe (R460, D13). Raised by a wait
  step. Safe. -/
  | haltDuringWait
  /-- With `model_dummy_reads` a dummy access or discarded fetch may meet a device (R82, D11). Raised by the event
  history of History.lean alone, by no step. Safe. -/
  | ignoredReadOfDevice
deriving DecidableEq, Repr

/-- The address of the RESET vector (R72). -/
def resetVector : Word := 0xFFFE#16

/-- The machine right after reset (R44): DP clear, I and F set, NMI disarmed and not pending, Running, PC from the
RESET vector, memory with nothing listed. A, B, X, Y, U, S and the bits E, H, N, Z, V, C have no reset value in
the spec: they are zero here, a DESIGN CHOICE (log entry 2). -/
def State.reset : State where
  a := 0x00#8
  b := 0x00#8
  x := 0x0000#16
  y := 0x0000#16
  u := 0x0000#16
  s := 0x0000#16
  pc := Memory.read16 [] resetVector
  dp := 0x00#8
  cc := { e := false, f := true, h := false, i := true, n := false, z := false, v := false, c := false }
  nmiArmed := false
  nmiPending := false
  run := .running
  resetHalt := false
  mem := []
  platform := Platform.standard
  busTime := 0
  inputs := []
  draws := 0

end Sys2Proof.Machine
end

