-- ==== Sys2Proof/Machine/Flags.lean ====
section
/-! DEFINITION. The condition codes: the register as a byte (R28), and every result and flag computation of
00_scope.md section 5.1 (R9 to R13) and of 41_alu8_single_operand.md. Sums and differences are formed exactly as
natural numbers and narrowed at the end. -/

namespace Sys2Proof.Machine

/-- CC as the byte that is pushed, transferred and stacked: E in bit 7 down to C in bit 0 (R28). -/
def CC.toByte (cc : CC) : Byte :=
  BitVec.ofNat 8 (128 * cc.e.toNat + 64 * cc.f.toNat + 32 * cc.h.toNat + 16 * cc.i.toNat +
    8 * cc.n.toNat + 4 * cc.z.toNat + 2 * cc.v.toNat + cc.c.toNat)

/-- CC from a whole byte (R28, R37). -/
def CC.ofByte (v : Byte) : CC where
  e := v.getLsbD 7
  f := v.getLsbD 6
  h := v.getLsbD 5
  i := v.getLsbD 4
  n := v.getLsbD 3
  z := v.getLsbD 2
  v := v.getLsbD 1
  c := v.getLsbD 0

/-- A result with its N, Z, V and C. -/
structure Alu (w : Nat) where
  r : BitVec w
  n : Bool
  z : Bool
  v : Bool
  c : Bool
deriving DecidableEq, Repr

/-- The N of `nz8` and `nz16`: the most significant bit of the result (R9). -/
def isNeg {w : Nat} (r : BitVec w) : Bool := r.msb

/-- The Z of `nz8` and `nz16`: whether the result is identically zero (R9). -/
def isZero {w : Nat} (r : BitVec w) : Bool := r == 0#w

/-- `add8(a, b, cin)` without H (R10): V is the mismatch of the carries out of bits 7 and 6. -/
def add8 (a b : Byte) (cin : Bool) : Alu 8 :=
  let s9 := a.toNat + b.toNat + cin.toNat
  let r : Byte := BitVec.ofNat 8 s9
  let c := decide (256 ≤ s9)
  let c7in := decide (128 ≤ a.toNat % 128 + b.toNat % 128 + cin.toNat)
  { r := r, n := isNeg r, z := isZero r, v := c != c7in, c := c }

/-- The H of `add8(a, b, cin)`: the carry out of bit 3 (R10). -/
def halfCarry (a b : Byte) (cin : Bool) : Bool :=
  decide (16 ≤ a.toNat % 16 + b.toNat % 16 + cin.toNat)

/-- `sub8(a, b, bin)` (R11): C is the borrow. -/
def sub8 (a b : Byte) (bin : Bool) : Alu 8 :=
  let r : Byte := BitVec.ofNat 8 (a.toNat + 512 - b.toNat - bin.toNat)
  { r := r, n := isNeg r, z := isZero r,
    v := a.msb != b.msb && r.msb != a.msb,
    c := decide (a.toNat < b.toNat + bin.toNat) }

/-- `add16(a, b)` (R12). -/
def add16 (a b : Word) : Alu 16 :=
  let s17 := a.toNat + b.toNat
  let r : Word := BitVec.ofNat 16 s17
  { r := r, n := isNeg r, z := isZero r,
    v := a.msb == b.msb && r.msb != a.msb,
    c := decide (65536 ≤ s17) }

/-- `sub16(a, b)` (R13). -/
def sub16 (a b : Word) : Alu 16 :=
  let r : Word := BitVec.ofNat 16 (a.toNat + 65536 - b.toNat)
  { r := r, n := isNeg r, z := isZero r,
    v := a.msb != b.msb && r.msb != a.msb,
    c := decide (a.toNat < b.toNat) }

/-- `neg8(m)`: `sub8($00, m, 0)` (R202). -/
def neg8 (m : Byte) : Alu 8 := sub8 0x00#8 m false

/-- `com8(m)` with V = 0 and C = 1 (R206). -/
def com8 (m : Byte) : Alu 8 :=
  { r := ~~~m, n := isNeg (~~~m), z := isZero (~~~m), v := false, c := true }

/-- `v[hi]:m[7:1]`: one place toward bit 0, `top` entering bit 7 (R210, R214, R218). -/
def shiftRight8 (top : Bool) (m : Byte) : Byte := BitVec.ofBool top ++ m.extractLsb' 1 7

/-- `m[6:0]:cin`: one place toward bit 7, `bottom` entering bit 0 (R222, R226). -/
def shiftLeft8 (m : Byte) (bottom : Bool) : Byte := m.extractLsb' 0 7 ++ BitVec.ofBool bottom

/-- A right shift or rotate with `top` entering bit 7; the V given is kept by the caller (R210, R214, R218). -/
def right8 (top : Bool) (m : Byte) (v : Bool) : Alu 8 :=
  let r := shiftRight8 top m
  { r := r, n := isNeg r, z := isZero r, v := v, c := m.getLsbD 0 }

/-- A left shift or rotate with `bottom` entering bit 0: C is bit 7, V is `m[7] ^ m[6]` (R222, R226). -/
def left8 (m : Byte) (bottom : Bool) : Alu 8 :=
  let r := shiftLeft8 m bottom
  { r := r, n := isNeg r, z := isZero r, v := m.getLsbD 7 != m.getLsbD 6, c := m.getLsbD 7 }

/-- `dec8(m)`; C is the caller's, kept (R230). -/
def dec8 (m : Byte) (c : Bool) : Alu 8 :=
  let r := m - 1#8
  { r := r, n := isNeg r, z := isZero r, v := m == 0x80#8, c := c }

/-- `inc8(m)`; C is the caller's, kept (R234). -/
def inc8 (m : Byte) (c : Bool) : Alu 8 :=
  let r := m + 1#8
  { r := r, n := isNeg r, z := isZero r, v := m == 0x7F#8, c := c }

/-- The correction byte of DAA (R246). -/
def daaCorrection (a : Byte) (h c : Bool) : Nat :=
  let lo := a.toNat % 16
  let hi := a.toNat / 16
  (if h || decide (9 < lo) then 0x06 else 0x00) +
    (if c || decide (9 < hi) || (decide (8 < hi) && decide (9 < lo)) then 0x60 else 0x00)

/-- DAA without its V, which R246 leaves a free bit: `v` is the one given. C is never cleared (R246). -/
def daa8 (a : Byte) (h c v : Bool) : Alu 8 :=
  let s9 := a.toNat + daaCorrection a h c
  let r : Byte := BitVec.ofNat 8 s9
  { r := r, n := isNeg r, z := isZero r, v := v, c := c || decide (256 ≤ s9) }

/-- CC with N, Z, V and C of a result; E, F, H and I stay. -/
def CC.setNZVC {w : Nat} (cc : CC) (o : Alu w) : CC :=
  { cc with n := o.n, z := o.z, v := o.v, c := o.c }

/-- CC with N and Z of a value and V clear, as after loads, stores, tests and logic; C, E, F, H and I stay. -/
def CC.setNZ0 {w : Nat} (cc : CC) (r : BitVec w) : CC :=
  { cc with n := isNeg r, z := isZero r, v := false }

end Sys2Proof.Machine
end

