-- ==== Sys2Proof/Syntax.lean ====
section
/-! DEFINITION. The abstract syntax of the MC6809E: one constructor of `Instr` per row of
spec/opcode_table.json (mnemonic and format), and the operand forms of 30_encoding.md. -/

namespace Sys2Proof

/-- The pointer register field RR of an indexed postbyte (R100). -/
inductive PtrReg where
  | x | y | u | s
deriving DecidableEq, Repr

/-- An indexed operand: the fourteen forms of R101 to R114. `ind` is the indirect bit of R115, present exactly
where the spec defines both variants, so that the undefined postbytes of R116 have no term. -/
inductive Idx where
  /-- `n,R`, 5-bit offset in the postbyte (R101). -/
  | off5 (r : PtrReg) (n : BitVec 5)
  /-- `,R+` (R102). -/
  | inc1 (r : PtrReg)
  /-- `,R++` or `[,R++]` (R103). -/
  | inc2 (r : PtrReg) (ind : Bool)
  /-- `,-R` (R104). -/
  | dec1 (r : PtrReg)
  /-- `,--R` or `[,--R]` (R105). -/
  | dec2 (r : PtrReg) (ind : Bool)
  /-- `,R` or `[,R]` (R106). -/
  | zero (r : PtrReg) (ind : Bool)
  /-- `B,R` or `[B,R]` (R107). -/
  | accB (r : PtrReg) (ind : Bool)
  /-- `A,R` or `[A,R]` (R108). -/
  | accA (r : PtrReg) (ind : Bool)
  /-- `n,R` or `[n,R]`, 8-bit offset (R109). -/
  | off8 (r : PtrReg) (ind : Bool) (n : Byte)
  /-- `n,R` or `[n,R]`, 16-bit offset (R110). -/
  | off16 (r : PtrReg) (ind : Bool) (n : Word)
  /-- `D,R` or `[D,R]` (R111). -/
  | accD (r : PtrReg) (ind : Bool)
  /-- `n,PCR` or `[n,PCR]`, 8-bit offset (R112). -/
  | pc8 (ind : Bool) (n : Byte)
  /-- `n,PCR` or `[n,PCR]`, 16-bit offset (R113). -/
  | pc16 (ind : Bool) (n : Word)
  /-- `[n]`, extended indirect (R114). -/
  | extInd (n : Word)
deriving DecidableEq, Repr

/-- The ten registers that a TFR or EXG postbyte can name (R119). -/
inductive RegCode where
  | d | x | y | u | s | pc | a | b | cc | dp
deriving DecidableEq, Repr

/-- The instructions: the rows of spec/opcode_table.json in its order, those with an operand first and the
inherent ones after them (Lean's run time numbers at most 244 constructors that carry data). `imm` is an immediate operand (R95), `lo` the
address byte of direct mode (R96), `addr` the address of extended mode (R97), `m` an indexed operand (R100),
`off` a branch offset (R98, R99), `pb` a push or pull postbyte (R121), `src` and `dst` the two registers of
TFR and EXG (R119). ASL is also LSL, BCC also BHS, BCS also BLO (R129). -/
inductive Instr where
  -- Page 1, opcodes 00 to 0F (R122)
  | negDir (lo : Byte)
  | comDir (lo : Byte)
  | lsrDir (lo : Byte)
  | rorDir (lo : Byte)
  | asrDir (lo : Byte)
  | aslDir (lo : Byte)
  | rolDir (lo : Byte)
  | decDir (lo : Byte)
  | incDir (lo : Byte)
  | tstDir (lo : Byte)
  | jmpDir (lo : Byte)
  | clrDir (lo : Byte)
  -- Page 1, opcodes 10 to 1F (R122)
  | lbra (off : Word)
  | lbsr (off : Word)
  | orcc (imm : Byte)
  | andcc (imm : Byte)
  | exg (src : RegCode) (dst : RegCode)
  | tfr (src : RegCode) (dst : RegCode)
  -- Page 1, opcodes 20 to 2F (R122)
  | bra (off : Byte)
  | brn (off : Byte)
  | bhi (off : Byte)
  | bls (off : Byte)
  | bcc (off : Byte)
  | bcs (off : Byte)
  | bne (off : Byte)
  | beq (off : Byte)
  | bvc (off : Byte)
  | bvs (off : Byte)
  | bpl (off : Byte)
  | bmi (off : Byte)
  | bge (off : Byte)
  | blt (off : Byte)
  | bgt (off : Byte)
  | ble (off : Byte)
  -- Page 1, opcodes 30 to 3F (R122)
  | leax (m : Idx)
  | leay (m : Idx)
  | leas (m : Idx)
  | leau (m : Idx)
  | pshs (pb : Byte)
  | puls (pb : Byte)
  | pshu (pb : Byte)
  | pulu (pb : Byte)
  | cwai (imm : Byte)
  -- Page 1, opcodes 60 to 6F (R122)
  | negIdx (m : Idx)
  | comIdx (m : Idx)
  | lsrIdx (m : Idx)
  | rorIdx (m : Idx)
  | asrIdx (m : Idx)
  | aslIdx (m : Idx)
  | rolIdx (m : Idx)
  | decIdx (m : Idx)
  | incIdx (m : Idx)
  | tstIdx (m : Idx)
  | jmpIdx (m : Idx)
  | clrIdx (m : Idx)
  -- Page 1, opcodes 70 to 7F (R122)
  | negExt (addr : Word)
  | comExt (addr : Word)
  | lsrExt (addr : Word)
  | rorExt (addr : Word)
  | asrExt (addr : Word)
  | aslExt (addr : Word)
  | rolExt (addr : Word)
  | decExt (addr : Word)
  | incExt (addr : Word)
  | tstExt (addr : Word)
  | jmpExt (addr : Word)
  | clrExt (addr : Word)
  -- Page 1, opcodes 80 to 8F (R122)
  | subaImm (imm : Byte)
  | cmpaImm (imm : Byte)
  | sbcaImm (imm : Byte)
  | subdImm (imm : Word)
  | andaImm (imm : Byte)
  | bitaImm (imm : Byte)
  | ldaImm (imm : Byte)
  | eoraImm (imm : Byte)
  | adcaImm (imm : Byte)
  | oraImm (imm : Byte)
  | addaImm (imm : Byte)
  | cmpxImm (imm : Word)
  | bsr (off : Byte)
  | ldxImm (imm : Word)
  -- Page 1, opcodes 90 to 9F (R122)
  | subaDir (lo : Byte)
  | cmpaDir (lo : Byte)
  | sbcaDir (lo : Byte)
  | subdDir (lo : Byte)
  | andaDir (lo : Byte)
  | bitaDir (lo : Byte)
  | ldaDir (lo : Byte)
  | staDir (lo : Byte)
  | eoraDir (lo : Byte)
  | adcaDir (lo : Byte)
  | oraDir (lo : Byte)
  | addaDir (lo : Byte)
  | cmpxDir (lo : Byte)
  | jsrDir (lo : Byte)
  | ldxDir (lo : Byte)
  | stxDir (lo : Byte)
  -- Page 1, opcodes A0 to AF (R122)
  | subaIdx (m : Idx)
  | cmpaIdx (m : Idx)
  | sbcaIdx (m : Idx)
  | subdIdx (m : Idx)
  | andaIdx (m : Idx)
  | bitaIdx (m : Idx)
  | ldaIdx (m : Idx)
  | staIdx (m : Idx)
  | eoraIdx (m : Idx)
  | adcaIdx (m : Idx)
  | oraIdx (m : Idx)
  | addaIdx (m : Idx)
  | cmpxIdx (m : Idx)
  | jsrIdx (m : Idx)
  | ldxIdx (m : Idx)
  | stxIdx (m : Idx)
  -- Page 1, opcodes B0 to BF (R122)
  | subaExt (addr : Word)
  | cmpaExt (addr : Word)
  | sbcaExt (addr : Word)
  | subdExt (addr : Word)
  | andaExt (addr : Word)
  | bitaExt (addr : Word)
  | ldaExt (addr : Word)
  | staExt (addr : Word)
  | eoraExt (addr : Word)
  | adcaExt (addr : Word)
  | oraExt (addr : Word)
  | addaExt (addr : Word)
  | cmpxExt (addr : Word)
  | jsrExt (addr : Word)
  | ldxExt (addr : Word)
  | stxExt (addr : Word)
  -- Page 1, opcodes C0 to CF (R122)
  | subbImm (imm : Byte)
  | cmpbImm (imm : Byte)
  | sbcbImm (imm : Byte)
  | adddImm (imm : Word)
  | andbImm (imm : Byte)
  | bitbImm (imm : Byte)
  | ldbImm (imm : Byte)
  | eorbImm (imm : Byte)
  | adcbImm (imm : Byte)
  | orbImm (imm : Byte)
  | addbImm (imm : Byte)
  | lddImm (imm : Word)
  | lduImm (imm : Word)
  -- Page 1, opcodes D0 to DF (R122)
  | subbDir (lo : Byte)
  | cmpbDir (lo : Byte)
  | sbcbDir (lo : Byte)
  | adddDir (lo : Byte)
  | andbDir (lo : Byte)
  | bitbDir (lo : Byte)
  | ldbDir (lo : Byte)
  | stbDir (lo : Byte)
  | eorbDir (lo : Byte)
  | adcbDir (lo : Byte)
  | orbDir (lo : Byte)
  | addbDir (lo : Byte)
  | lddDir (lo : Byte)
  | stdDir (lo : Byte)
  | lduDir (lo : Byte)
  | stuDir (lo : Byte)
  -- Page 1, opcodes E0 to EF (R122)
  | subbIdx (m : Idx)
  | cmpbIdx (m : Idx)
  | sbcbIdx (m : Idx)
  | adddIdx (m : Idx)
  | andbIdx (m : Idx)
  | bitbIdx (m : Idx)
  | ldbIdx (m : Idx)
  | stbIdx (m : Idx)
  | eorbIdx (m : Idx)
  | adcbIdx (m : Idx)
  | orbIdx (m : Idx)
  | addbIdx (m : Idx)
  | lddIdx (m : Idx)
  | stdIdx (m : Idx)
  | lduIdx (m : Idx)
  | stuIdx (m : Idx)
  -- Page 1, opcodes F0 to FF (R122)
  | subbExt (addr : Word)
  | cmpbExt (addr : Word)
  | sbcbExt (addr : Word)
  | adddExt (addr : Word)
  | andbExt (addr : Word)
  | bitbExt (addr : Word)
  | ldbExt (addr : Word)
  | stbExt (addr : Word)
  | eorbExt (addr : Word)
  | adcbExt (addr : Word)
  | orbExt (addr : Word)
  | addbExt (addr : Word)
  | lddExt (addr : Word)
  | stdExt (addr : Word)
  | lduExt (addr : Word)
  | stuExt (addr : Word)
  -- Page 2, opcodes 20 to 2F (R123)
  | lbrn (off : Word)
  | lbhi (off : Word)
  | lbls (off : Word)
  | lbcc (off : Word)
  | lbcs (off : Word)
  | lbne (off : Word)
  | lbeq (off : Word)
  | lbvc (off : Word)
  | lbvs (off : Word)
  | lbpl (off : Word)
  | lbmi (off : Word)
  | lbge (off : Word)
  | lblt (off : Word)
  | lbgt (off : Word)
  | lble (off : Word)
  -- Page 2, opcodes 80 to 8F (R123)
  | cmpdImm (imm : Word)
  | cmpyImm (imm : Word)
  | ldyImm (imm : Word)
  -- Page 2, opcodes 90 to 9F (R123)
  | cmpdDir (lo : Byte)
  | cmpyDir (lo : Byte)
  | ldyDir (lo : Byte)
  | styDir (lo : Byte)
  -- Page 2, opcodes A0 to AF (R123)
  | cmpdIdx (m : Idx)
  | cmpyIdx (m : Idx)
  | ldyIdx (m : Idx)
  | styIdx (m : Idx)
  -- Page 2, opcodes B0 to BF (R123)
  | cmpdExt (addr : Word)
  | cmpyExt (addr : Word)
  | ldyExt (addr : Word)
  | styExt (addr : Word)
  -- Page 2, opcodes C0 to CF (R123)
  | ldsImm (imm : Word)
  -- Page 2, opcodes D0 to DF (R123)
  | ldsDir (lo : Byte)
  | stsDir (lo : Byte)
  -- Page 2, opcodes E0 to EF (R123)
  | ldsIdx (m : Idx)
  | stsIdx (m : Idx)
  -- Page 2, opcodes F0 to FF (R123)
  | ldsExt (addr : Word)
  | stsExt (addr : Word)
  -- Page 3, opcodes 80 to 8F (R124)
  | cmpuImm (imm : Word)
  | cmpsImm (imm : Word)
  -- Page 3, opcodes 90 to 9F (R124)
  | cmpuDir (lo : Byte)
  | cmpsDir (lo : Byte)
  -- Page 3, opcodes A0 to AF (R124)
  | cmpuIdx (m : Idx)
  | cmpsIdx (m : Idx)
  -- Page 3, opcodes B0 to BF (R124)
  | cmpuExt (addr : Word)
  | cmpsExt (addr : Word)
  -- Page 1, opcodes 10 to 1F (R122), inherent
  | nop
  | sync
  | daa
  | sex
  -- Page 1, opcodes 30 to 3F (R122), inherent
  | rts
  | abx
  | rti
  | mul
  | swi
  -- Page 1, opcodes 40 to 4F (R122), inherent
  | nega
  | coma
  | lsra
  | rora
  | asra
  | asla
  | rola
  | deca
  | inca
  | tsta
  | clra
  -- Page 1, opcodes 50 to 5F (R122), inherent
  | negb
  | comb
  | lsrb
  | rorb
  | asrb
  | aslb
  | rolb
  | decb
  | incb
  | tstb
  | clrb
  -- Page 2, opcodes 30 to 3F (R123), inherent
  | swi2
  -- Page 3, opcodes 30 to 3F (R124), inherent
  | swi3
deriving DecidableEq, Repr

end Sys2Proof
end

