-- ==== Sys2Proof/Machine/Ops.lean ====
section
/-! DEFINITION. The named operations over registers and memory: reads and writes (R62, R66), free bits (R14), the
registers that instructions name, the stacks (R80, R81), taking an exception and returning from one
(60_exceptions.md R440 to R445, 45_misc.md R410). -/

namespace Sys2Proof.Machine

/-! ### Memory -/

/-- Does the region cover the address? -/
def Region.covers (r : Region) (a : Word) : Bool := decide ((a - r.base).toNat < r.size)

/-- What answers at an address: the first region that covers it, RAM if none does (D1). -/
def Platform.kindAt (p : Platform) (a : Word) : CellKind :=
  match p.regions.find? (fun r => r.covers a) with
  | some r => r.kind
  | none => .ram

/-- What answers at an address (R62, R74). -/
def State.kindAt (st : State) (a : Word) : CellKind := st.platform.kindAt a

/-- One bus read cycle (R62): memory answers with its byte, anything else with a byte of the platform's. -/
def State.busRead (st : State) (k : Config.Access) (a : Word) : Byte :=
  match st.kindAt a with
  | .ram | .rom => Memory.read st.mem a
  | .device => Config.platformRead k st.busTime a

/-- `MemRead(addr, 1)` of a byte of data (R62). -/
def State.read8 (st : State) (a : Word) : Byte := st.busRead .data a

/-- `MemRead(addr, 2)` of data, high byte first (R63, R66). -/
def State.read16 (st : State) (a : Word) : Word := wordOf (st.read8 a) (st.read8 (a + 1#16))

/-- `MemRead(addr, 2)` of the address that an indirect operand holds (R66, R115). -/
def State.readPointer (st : State) (a : Word) : Word :=
  wordOf (st.busRead .pointer a) (st.busRead .pointer (a + 1#16))

/-- One bus write cycle (R62): RAM takes the byte, ROM ignores it, anything else is the platform's and holds no byte
of memory. -/
def Memory.store (m : Memory) (p : Platform) (a : Word) (v : Byte) : Memory :=
  match p.kindAt a with
  | .ram => Memory.write m a v
  | .rom | .device => m

/-- `MemWrite(addr, 1, v)` (R62). -/
def State.write8 (st : State) (a : Word) (v : Byte) : State := { st with mem := st.mem.store st.platform a v }

/-- `MemWrite(addr, 2, v)`: the high byte to `addr`, then the low byte to `addr + 1` modulo 2^16 (R66). -/
def State.write16 (st : State) (a : Word) (v : Word) : State :=
  (st.write8 a (hiByte v)).write8 (a + 1#16) (loByte v)

/-! ### Free bits -/

/-- H is undefined: a fresh free bit (R14, D6). -/
def State.undefH (st : State) : State :=
  { st with cc := { st.cc with h := Config.undefBit st.draws }, draws := st.draws + 1 }

/-- V is undefined: a fresh free bit (R14, D21). -/
def State.undefV (st : State) : State :=
  { st with cc := { st.cc with v := Config.undefBit st.draws }, draws := st.draws + 1 }

/-! ### Registers -/

/-- The two accumulators (R20). -/
inductive Acc where
  | a | b
deriving DecidableEq, Repr

/-- Read an accumulator. -/
def State.acc (st : State) : Acc → Byte
  | .a => st.a
  | .b => st.b

/-- Write an accumulator. -/
def State.setAcc (st : State) : Acc → Byte → State
  | .a, v => { st with a := v }
  | .b, v => { st with b := v }

/-- Read D, the pair A:B (R21). -/
def State.d (st : State) : Word := wordOf st.a st.b

/-- Write D: A takes the high byte, B the low byte (R21). -/
def State.setD (st : State) (v : Word) : State := { st with a := hiByte v, b := loByte v }

/-- The 16-bit registers that loads, stores, compares and LEA name. -/
inductive Reg16 where
  | d | x | y | u | s
deriving DecidableEq, Repr

/-- Read a 16-bit register. -/
def State.reg16 (st : State) : Reg16 → Word
  | .d => st.d
  | .x => st.x
  | .y => st.y
  | .u => st.u
  | .s => st.s

/-- LDS: S is written and NMI is armed, whatever the parameter `nmi_arm_set` is (R39, R300, D9). -/
def State.loadS (st : State) (v : Word) : State := { st with s := v, nmiArmed := true }

/-- S as a destination of another instruction (LEAS, TFR, EXG, PULU): it arms NMI if the parameter `nmi_arm_set` is
the wide set (R39, R300, D9). Log entry 7. -/
def State.assignS (st : State) (v : Word) : State :=
  { st with s := v, nmiArmed := st.nmiArmed || st.platform.nmiArmSet == .wide }

/-- Load a 16-bit register from memory or an immediate; LDS arms NMI (R300). -/
def State.loadReg16 (st : State) : Reg16 → Word → State
  | .d, v => st.setD v
  | .x, v => { st with x := v }
  | .y, v => { st with y := v }
  | .u, v => { st with u := v }
  | .s, v => st.loadS v

/-- Write a 16-bit register as LEA does (R313 to R317). -/
def State.assignReg16 (st : State) : Reg16 → Word → State
  | .d, v => st.setD v
  | .x, v => { st with x := v }
  | .y, v => { st with y := v }
  | .u, v => { st with u := v }
  | .s, v => st.assignS v

/-- Read a pointer register of an indexed operand (R100). -/
def State.ptr (st : State) : PtrReg → Word
  | .x => st.x
  | .y => st.y
  | .u => st.u
  | .s => st.s

/-- Adjust a pointer register, as auto increment and decrement do. Adjusting S is no load of S: NMI is not armed
(R300). -/
def State.setPtr (st : State) : PtrReg → Word → State
  | .x, v => { st with x := v }
  | .y, v => { st with y := v }
  | .u, v => { st with u := v }
  | .s, v => { st with s := v }

/-- The value of a register that TFR and EXG move, with its size (R119). -/
inductive RegValue where
  | byte (v : Byte)
  | word (v : Word)
deriving DecidableEq, Repr

/-- `reg[c]` (R119); PC reads as the address of the next instruction (R15, R326). -/
def State.readCode (st : State) : RegCode → RegValue
  | .d => .word st.d
  | .x => .word st.x
  | .y => .word st.y
  | .u => .word st.u
  | .s => .word st.s
  | .pc => .word st.pc
  | .a => .byte st.a
  | .b => .byte st.b
  | .cc => .byte st.cc.toByte
  | .dp => .byte st.dp

/-- `reg[c] <- v` (R119), `none` where the sizes differ (R120). Writing S is a load of S (R300), writing CC writes
all eight bits (R37), writing PC is a jump (R326). -/
def State.writeCode (st : State) : RegCode → RegValue → Option State
  | .d, .word v => some (st.setD v)
  | .x, .word v => some { st with x := v }
  | .y, .word v => some { st with y := v }
  | .u, .word v => some { st with u := v }
  | .s, .word v => some (st.assignS v)
  | .pc, .word v => some { st with pc := v }
  | .a, .byte v => some { st with a := v }
  | .b, .byte v => some { st with b := v }
  | .cc, .byte v => some { st with cc := CC.ofByte v }
  | .dp, .byte v => some { st with dp := v }
  | _, _ => none

/-! ### The two stacks -/

/-- Which stack a push or pull uses: S (PSHS, PULS, calls, interrupts) or U (PSHU, PULU) (R80, R320). -/
inductive Stack where
  | s | u
deriving DecidableEq, Repr

/-- The stack pointer in use, `SP` (R320). -/
def State.sp (st : State) : Stack → Word
  | .s => st.s
  | .u => st.u

/-- Adjust the stack pointer in use; this is no load of S (R300). -/
def State.setSp (st : State) : Stack → Word → State
  | .s, v => { st with s := v }
  | .u, v => { st with u := v }

/-- The other stack pointer, `OSP`: bit 6 of a push or pull postbyte (R121, R320). -/
def State.otherSp (st : State) : Stack → Word
  | .s => st.u
  | .u => st.s

/-- Load the other stack pointer: PULS loads U, PULU loads S and arms NMI (R300, R323, R324). -/
def State.loadOtherSp (st : State) : Stack → Word → State
  | .s, v => { st with u := v }
  | .u, v => st.assignS v

/-- `Push8(SP, v)` (R80). -/
def State.push8 (st : State) (k : Stack) (v : Byte) : State :=
  (st.setSp k (st.sp k - 1#16)).write8 (st.sp k - 1#16) v

/-- `Push16(SP, v)`: low byte first (R80). -/
def State.push16 (st : State) (k : Stack) (v : Word) : State := (st.push8 k (loByte v)).push8 k (hiByte v)

/-- The byte that `Pull8(SP)` returns (R80). -/
def State.top8 (st : State) (k : Stack) : Byte := st.read8 (st.sp k)

/-- The word that `Pull16(SP)` returns: high byte first (R80). -/
def State.top16 (st : State) (k : Stack) : Word := st.read16 (st.sp k)

/-- `SP` moved up past `n` pulled bytes (R80). -/
def State.drop (st : State) (k : Stack) (n : Word) : State := st.setSp k (st.sp k + n)

/-- The push half of R321 and R322: PC, OSP, Y, X, DP, B, A, CC in that order, each if its postbyte bit is set
(R81, R121). -/
def State.pushRegs (st : State) (k : Stack) (pb : Byte) : State :=
  let s7 := if pb.getLsbD 7 then st.push16 k st.pc else st
  let s6 := if pb.getLsbD 6 then s7.push16 k (st.otherSp k) else s7
  let s5 := if pb.getLsbD 5 then s6.push16 k st.y else s6
  let s4 := if pb.getLsbD 4 then s5.push16 k st.x else s5
  let s3 := if pb.getLsbD 3 then s4.push8 k st.dp else s4
  let s2 := if pb.getLsbD 2 then s3.push8 k st.b else s3
  let s1 := if pb.getLsbD 1 then s2.push8 k st.a else s2
  if pb.getLsbD 0 then s1.push8 k st.cc.toByte else s1

/-- The pull half of R323 and R324: CC, A, B, DP, X, Y, OSP, PC in that order, each if its postbyte bit is set
(R81, R121). -/
def State.pullRegs (st : State) (k : Stack) (pb : Byte) : State :=
  let s0 := if pb.getLsbD 0 then { st.drop k 1#16 with cc := CC.ofByte (st.top8 k) } else st
  let s1 := if pb.getLsbD 1 then { s0.drop k 1#16 with a := s0.top8 k } else s0
  let s2 := if pb.getLsbD 2 then { s1.drop k 1#16 with b := s1.top8 k } else s1
  let s3 := if pb.getLsbD 3 then { s2.drop k 1#16 with dp := s2.top8 k } else s2
  let s4 := if pb.getLsbD 4 then { s3.drop k 2#16 with x := s3.top16 k } else s3
  let s5 := if pb.getLsbD 5 then { s4.drop k 2#16 with y := s4.top16 k } else s4
  let s6 := if pb.getLsbD 6 then (s5.drop k 2#16).loadOtherSp k (s5.top16 k) else s5
  if pb.getLsbD 7 then { s6.drop k 2#16 with pc := s6.top16 k } else s6

/-! ### Taking an exception and returning from one -/

/-- The events that divert control through a vector, RESET apart (R431). -/
inductive Event where
  | nmi | firq | irq | swi | swi2 | swi3
deriving DecidableEq, Repr

/-- The address of the event's vector (R72, R431). -/
def Event.vector : Event → Word
  | .nmi => 0xFFFC#16
  | .swi => 0xFFFA#16
  | .irq => 0xFFF8#16
  | .firq => 0xFFF6#16
  | .swi2 => 0xFFF4#16
  | .swi3 => 0xFFF2#16

/-- Does the event stack the entire state, or only PC and CC (R431)? -/
def Event.entire : Event → Bool
  | .firq => false
  | .nmi | .irq | .swi | .swi2 | .swi3 => true

/-- Does the event set I (R33, R431)? -/
def Event.setsI : Event → Bool
  | .nmi | .firq | .irq | .swi => true
  | .swi2 | .swi3 => false

/-- Does the event set F (R35, R431)? -/
def Event.setsF : Event → Bool
  | .nmi | .firq | .swi => true
  | .irq | .swi2 | .swi3 => false

/-- `StackEntire()` (R440): E is set, then all twelve bytes are pushed on S. -/
def State.stackEntire (st : State) : State := { st with cc := { st.cc with e := true } }.pushRegs .s 0xFF#8

/-- The subset stacking of FIRQ (R442): E is cleared, then PC and CC are pushed on S. -/
def State.stackSubset (st : State) : State := { st with cc := { st.cc with e := false } }.pushRegs .s 0x81#8

/-- The masks and the vector fetch of an event, after its stacking (R431, R441 to R445). -/
def State.enterHandler (st : State) (ev : Event) : State :=
  { st with
    cc := { st.cc with i := st.cc.i || ev.setsI, f := st.cc.f || ev.setsF }
    pc := st.read16 ev.vector }

/-- Taking an exception: the stacking of the event, then its masks and its vector (R407 to R409, R440 to R444). -/
def State.takeException (st : State) (ev : Event) : State :=
  (if ev.entire then st.stackEntire else st.stackSubset).enterHandler ev

/-- Returning from one (R410): CC is pulled, then by the pulled E either A, B, DP, X, Y, U and PC, or PC alone. -/
def State.returnFromInterrupt (st : State) : State :=
  let s1 := st.pullRegs .s 0x01#8
  s1.pullRegs .s (if s1.cc.e then 0xFE#8 else 0x80#8)

end Sys2Proof.Machine
end

