-- ==== Sys2Proof/Machine/Operands.lean ====
section
/-! DEFINITION. The operand forms of 30_encoding.md: direct, extended and indexed effective addresses (R96 to
R118), and how an operation is run on an operand of each form. PC is the address of the next instruction (R15). -/

namespace Sys2Proof.Machine

/-- Direct: the upper eight address bits are DP (R96). -/
def State.directEA (st : State) (lo : Byte) : Word := wordOf st.dp lo

/-- One level of indirection, where the postbyte asks for it (R115). -/
def State.indirect (st : State) (ind : Bool) (a : Word) : Word := if ind then st.readPointer a else a

/-- The effective address of an indexed operand (R100 to R115): computed, with any indirect read, before the
pointer register is incremented and after it is decremented (R117). -/
def State.indexedEA (st : State) : Idx → Word
  | .off5 r n => st.ptr r + sext5 n
  | .inc1 r => st.ptr r
  | .inc2 r ind => st.indirect ind (st.ptr r)
  | .dec1 r => st.ptr r - 1#16
  | .dec2 r ind => st.indirect ind (st.ptr r - 2#16)
  | .zero r ind => st.indirect ind (st.ptr r)
  | .accB r ind => st.indirect ind (st.ptr r + sext8 st.b)
  | .accA r ind => st.indirect ind (st.ptr r + sext8 st.a)
  | .off8 r ind n => st.indirect ind (st.ptr r + sext8 n)
  | .off16 r ind n => st.indirect ind (st.ptr r + n)
  | .accD r ind => st.indirect ind (st.ptr r + st.d)
  | .pc8 ind n => st.indirect ind (st.pc + sext8 n)
  | .pc16 ind n => st.indirect ind (st.pc + n)
  | .extInd n => st.readPointer n

/-- The state after the auto increment or decrement of an indexed operand, if any (R102 to R105); the operation
itself comes after it (R117). -/
def State.afterIndex (st : State) : Idx → State
  | .inc1 r => st.setPtr r (st.ptr r + 1#16)
  | .inc2 r _ => st.setPtr r (st.ptr r + 2#16)
  | .dec1 r => st.setPtr r (st.ptr r - 1#16)
  | .dec2 r _ => st.setPtr r (st.ptr r - 2#16)
  | .off5 _ _ | .zero _ _ | .accB _ _ | .accA _ _ | .off8 _ _ _ | .off16 _ _ _ | .accD _ _
  | .pc8 _ _ | .pc16 _ _ | .extInd _ => st

/-- Run an operation on the effective address of a direct operand (R96). -/
def atDir (op : Word → State → State) (lo : Byte) (st : State) : State := op (st.directEA lo) st

/-- Run an operation on the effective address of an extended operand (R97). -/
def atExt (op : Word → State → State) (addr : Word) (st : State) : State := op addr st

/-- Run an operation on the effective address of an indexed operand, the pointer register being adjusted
first (R117). -/
def atIdx (op : Word → State → State) (m : Idx) (st : State) : State := op (st.indexedEA m) (st.afterIndex m)

/-- An operation on a byte operand, run on the byte at an effective address (R150). -/
def load8 (op : Byte → State → State) (ea : Word) (st : State) : State := op (st.read8 ea) st

/-- An operation on a word operand, run on the word at an effective address (R280). -/
def load16 (op : Word → State → State) (ea : Word) (st : State) : State := op (st.read16 ea) st

end Sys2Proof.Machine
end

