-- ==== Sys2Proof/Machine/AluMemory.lean ====
section
/-! DEFINITION. 8-bit accumulator instructions with a memory operand (spec 40_alu8_memory_operand.md): the
operations once, for either accumulator, and one meaning per row of the opcode table. -/

namespace Sys2Proof.Machine

/-- ADC: `acc + M + C` (R152, R153). -/
def adc (r : Acc) (m : Byte) (st : State) : State :=
  let o := add8 (st.acc r) m st.cc.c
  { st.setAcc r o.r with cc := { st.cc.setNZVC o with h := halfCarry (st.acc r) m st.cc.c } }

/-- ADD: `acc + M` (R154, R155). -/
def add (r : Acc) (m : Byte) (st : State) : State :=
  let o := add8 (st.acc r) m false
  { st.setAcc r o.r with cc := { st.cc.setNZVC o with h := halfCarry (st.acc r) m false } }

/-- SUB: `acc - M`; H becomes a free bit (R156, R157). -/
def sub (r : Acc) (m : Byte) (st : State) : State :=
  let o := sub8 (st.acc r) m false
  { st.setAcc r o.r with cc := st.cc.setNZVC o }.undefH

/-- SBC: `acc - M - C`; H becomes a free bit (R158, R159). -/
def sbc (r : Acc) (m : Byte) (st : State) : State :=
  let o := sub8 (st.acc r) m st.cc.c
  { st.setAcc r o.r with cc := st.cc.setNZVC o }.undefH

/-- CMP: the flags of `acc - M`; H becomes a free bit (R160, R161). -/
def cmp (r : Acc) (m : Byte) (st : State) : State :=
  { st with cc := st.cc.setNZVC (sub8 (st.acc r) m false) }.undefH

/-- A value goes to an accumulator, N and Z follow it and V is cleared; H and C stay (R162 to R171). -/
def putAcc (r : Acc) (v : Byte) (st : State) : State := { st.setAcc r v with cc := st.cc.setNZ0 v }

/-- AND (R162, R163). -/
def and8 (r : Acc) (m : Byte) (st : State) : State := putAcc r (st.acc r &&& m) st

/-- BIT: the flags of `acc & M` (R164, R165). -/
def bit8 (r : Acc) (m : Byte) (st : State) : State := { st with cc := st.cc.setNZ0 (st.acc r &&& m) }

/-- EOR (R166, R167). -/
def eor8 (r : Acc) (m : Byte) (st : State) : State := putAcc r (st.acc r ^^^ m) st

/-- OR (R168, R169). -/
def or8 (r : Acc) (m : Byte) (st : State) : State := putAcc r (st.acc r ||| m) st

/-- LD (R170, R171). -/
def ld8 (r : Acc) (m : Byte) (st : State) : State := putAcc r m st

/-- ST: the accumulator goes to the effective address (R172, R173). -/
def st8 (r : Acc) (ea : Word) (st : State) : State :=
  { st.write8 ea (st.acc r) with cc := st.cc.setNZ0 (st.acc r) }

/-! ### The rows -/

/-- ADCA, immediate (R152). -/
def execAdcaImm (imm : Byte) (st : State) : Host.Outcome State Fault Refusal :=
  .next (adc .a imm st)

/-- ADCA, direct (R152). -/
def execAdcaDir (lo : Byte) (st : State) : Host.Outcome State Fault Refusal :=
  .next (atDir (load8 (adc .a)) lo st)

/-- ADCA, indexed (R152). -/
def execAdcaIdx (m : Idx) (st : State) : Host.Outcome State Fault Refusal :=
  .next (atIdx (load8 (adc .a)) m st)

/-- ADCA, extended (R152). -/
def execAdcaExt (addr : Word) (st : State) : Host.Outcome State Fault Refusal :=
  .next (atExt (load8 (adc .a)) addr st)

/-- ADCB, immediate (R153). -/
def execAdcbImm (imm : Byte) (st : State) : Host.Outcome State Fault Refusal :=
  .next (adc .b imm st)

/-- ADCB, direct (R153). -/
def execAdcbDir (lo : Byte) (st : State) : Host.Outcome State Fault Refusal :=
  .next (atDir (load8 (adc .b)) lo st)

/-- ADCB, indexed (R153). -/
def execAdcbIdx (m : Idx) (st : State) : Host.Outcome State Fault Refusal :=
  .next (atIdx (load8 (adc .b)) m st)

/-- ADCB, extended (R153). -/
def execAdcbExt (addr : Word) (st : State) : Host.Outcome State Fault Refusal :=
  .next (atExt (load8 (adc .b)) addr st)

/-- ADDA, immediate (R154). -/
def execAddaImm (imm : Byte) (st : State) : Host.Outcome State Fault Refusal :=
  .next (add .a imm st)

/-- ADDA, direct (R154). -/
def execAddaDir (lo : Byte) (st : State) : Host.Outcome State Fault Refusal :=
  .next (atDir (load8 (add .a)) lo st)

/-- ADDA, indexed (R154). -/
def execAddaIdx (m : Idx) (st : State) : Host.Outcome State Fault Refusal :=
  .next (atIdx (load8 (add .a)) m st)

/-- ADDA, extended (R154). -/
def execAddaExt (addr : Word) (st : State) : Host.Outcome State Fault Refusal :=
  .next (atExt (load8 (add .a)) addr st)

/-- ADDB, immediate (R155). -/
def execAddbImm (imm : Byte) (st : State) : Host.Outcome State Fault Refusal :=
  .next (add .b imm st)

/-- ADDB, direct (R155). -/
def execAddbDir (lo : Byte) (st : State) : Host.Outcome State Fault Refusal :=
  .next (atDir (load8 (add .b)) lo st)

/-- ADDB, indexed (R155). -/
def execAddbIdx (m : Idx) (st : State) : Host.Outcome State Fault Refusal :=
  .next (atIdx (load8 (add .b)) m st)

/-- ADDB, extended (R155). -/
def execAddbExt (addr : Word) (st : State) : Host.Outcome State Fault Refusal :=
  .next (atExt (load8 (add .b)) addr st)

/-- SUBA, immediate (R156). -/
def execSubaImm (imm : Byte) (st : State) : Host.Outcome State Fault Refusal :=
  .next (sub .a imm st)

/-- SUBA, direct (R156). -/
def execSubaDir (lo : Byte) (st : State) : Host.Outcome State Fault Refusal :=
  .next (atDir (load8 (sub .a)) lo st)

/-- SUBA, indexed (R156). -/
def execSubaIdx (m : Idx) (st : State) : Host.Outcome State Fault Refusal :=
  .next (atIdx (load8 (sub .a)) m st)

/-- SUBA, extended (R156). -/
def execSubaExt (addr : Word) (st : State) : Host.Outcome State Fault Refusal :=
  .next (atExt (load8 (sub .a)) addr st)

/-- SUBB, immediate (R157). -/
def execSubbImm (imm : Byte) (st : State) : Host.Outcome State Fault Refusal :=
  .next (sub .b imm st)

/-- SUBB, direct (R157). -/
def execSubbDir (lo : Byte) (st : State) : Host.Outcome State Fault Refusal :=
  .next (atDir (load8 (sub .b)) lo st)

/-- SUBB, indexed (R157). -/
def execSubbIdx (m : Idx) (st : State) : Host.Outcome State Fault Refusal :=
  .next (atIdx (load8 (sub .b)) m st)

/-- SUBB, extended (R157). -/
def execSubbExt (addr : Word) (st : State) : Host.Outcome State Fault Refusal :=
  .next (atExt (load8 (sub .b)) addr st)

/-- SBCA, immediate (R158). -/
def execSbcaImm (imm : Byte) (st : State) : Host.Outcome State Fault Refusal :=
  .next (sbc .a imm st)

/-- SBCA, direct (R158). -/
def execSbcaDir (lo : Byte) (st : State) : Host.Outcome State Fault Refusal :=
  .next (atDir (load8 (sbc .a)) lo st)

/-- SBCA, indexed (R158). -/
def execSbcaIdx (m : Idx) (st : State) : Host.Outcome State Fault Refusal :=
  .next (atIdx (load8 (sbc .a)) m st)

/-- SBCA, extended (R158). -/
def execSbcaExt (addr : Word) (st : State) : Host.Outcome State Fault Refusal :=
  .next (atExt (load8 (sbc .a)) addr st)

/-- SBCB, immediate (R159). -/
def execSbcbImm (imm : Byte) (st : State) : Host.Outcome State Fault Refusal :=
  .next (sbc .b imm st)

/-- SBCB, direct (R159). -/
def execSbcbDir (lo : Byte) (st : State) : Host.Outcome State Fault Refusal :=
  .next (atDir (load8 (sbc .b)) lo st)

/-- SBCB, indexed (R159). -/
def execSbcbIdx (m : Idx) (st : State) : Host.Outcome State Fault Refusal :=
  .next (atIdx (load8 (sbc .b)) m st)

/-- SBCB, extended (R159). -/
def execSbcbExt (addr : Word) (st : State) : Host.Outcome State Fault Refusal :=
  .next (atExt (load8 (sbc .b)) addr st)

/-- CMPA, immediate (R160). -/
def execCmpaImm (imm : Byte) (st : State) : Host.Outcome State Fault Refusal :=
  .next (cmp .a imm st)

/-- CMPA, direct (R160). -/
def execCmpaDir (lo : Byte) (st : State) : Host.Outcome State Fault Refusal :=
  .next (atDir (load8 (cmp .a)) lo st)

/-- CMPA, indexed (R160). -/
def execCmpaIdx (m : Idx) (st : State) : Host.Outcome State Fault Refusal :=
  .next (atIdx (load8 (cmp .a)) m st)

/-- CMPA, extended (R160). -/
def execCmpaExt (addr : Word) (st : State) : Host.Outcome State Fault Refusal :=
  .next (atExt (load8 (cmp .a)) addr st)

/-- CMPB, immediate (R161). -/
def execCmpbImm (imm : Byte) (st : State) : Host.Outcome State Fault Refusal :=
  .next (cmp .b imm st)

/-- CMPB, direct (R161). -/
def execCmpbDir (lo : Byte) (st : State) : Host.Outcome State Fault Refusal :=
  .next (atDir (load8 (cmp .b)) lo st)

/-- CMPB, indexed (R161). -/
def execCmpbIdx (m : Idx) (st : State) : Host.Outcome State Fault Refusal :=
  .next (atIdx (load8 (cmp .b)) m st)

/-- CMPB, extended (R161). -/
def execCmpbExt (addr : Word) (st : State) : Host.Outcome State Fault Refusal :=
  .next (atExt (load8 (cmp .b)) addr st)

/-- ANDA, immediate (R162). -/
def execAndaImm (imm : Byte) (st : State) : Host.Outcome State Fault Refusal :=
  .next (and8 .a imm st)

/-- ANDA, direct (R162). -/
def execAndaDir (lo : Byte) (st : State) : Host.Outcome State Fault Refusal :=
  .next (atDir (load8 (and8 .a)) lo st)

/-- ANDA, indexed (R162). -/
def execAndaIdx (m : Idx) (st : State) : Host.Outcome State Fault Refusal :=
  .next (atIdx (load8 (and8 .a)) m st)

/-- ANDA, extended (R162). -/
def execAndaExt (addr : Word) (st : State) : Host.Outcome State Fault Refusal :=
  .next (atExt (load8 (and8 .a)) addr st)

/-- ANDB, immediate (R163). -/
def execAndbImm (imm : Byte) (st : State) : Host.Outcome State Fault Refusal :=
  .next (and8 .b imm st)

/-- ANDB, direct (R163). -/
def execAndbDir (lo : Byte) (st : State) : Host.Outcome State Fault Refusal :=
  .next (atDir (load8 (and8 .b)) lo st)

/-- ANDB, indexed (R163). -/
def execAndbIdx (m : Idx) (st : State) : Host.Outcome State Fault Refusal :=
  .next (atIdx (load8 (and8 .b)) m st)

/-- ANDB, extended (R163). -/
def execAndbExt (addr : Word) (st : State) : Host.Outcome State Fault Refusal :=
  .next (atExt (load8 (and8 .b)) addr st)

/-- BITA, immediate (R164). -/
def execBitaImm (imm : Byte) (st : State) : Host.Outcome State Fault Refusal :=
  .next (bit8 .a imm st)

/-- BITA, direct (R164). -/
def execBitaDir (lo : Byte) (st : State) : Host.Outcome State Fault Refusal :=
  .next (atDir (load8 (bit8 .a)) lo st)

/-- BITA, indexed (R164). -/
def execBitaIdx (m : Idx) (st : State) : Host.Outcome State Fault Refusal :=
  .next (atIdx (load8 (bit8 .a)) m st)

/-- BITA, extended (R164). -/
def execBitaExt (addr : Word) (st : State) : Host.Outcome State Fault Refusal :=
  .next (atExt (load8 (bit8 .a)) addr st)

/-- BITB, immediate (R165). -/
def execBitbImm (imm : Byte) (st : State) : Host.Outcome State Fault Refusal :=
  .next (bit8 .b imm st)

/-- BITB, direct (R165). -/
def execBitbDir (lo : Byte) (st : State) : Host.Outcome State Fault Refusal :=
  .next (atDir (load8 (bit8 .b)) lo st)

/-- BITB, indexed (R165). -/
def execBitbIdx (m : Idx) (st : State) : Host.Outcome State Fault Refusal :=
  .next (atIdx (load8 (bit8 .b)) m st)

/-- BITB, extended (R165). -/
def execBitbExt (addr : Word) (st : State) : Host.Outcome State Fault Refusal :=
  .next (atExt (load8 (bit8 .b)) addr st)

/-- EORA, immediate (R166). -/
def execEoraImm (imm : Byte) (st : State) : Host.Outcome State Fault Refusal :=
  .next (eor8 .a imm st)

/-- EORA, direct (R166). -/
def execEoraDir (lo : Byte) (st : State) : Host.Outcome State Fault Refusal :=
  .next (atDir (load8 (eor8 .a)) lo st)

/-- EORA, indexed (R166). -/
def execEoraIdx (m : Idx) (st : State) : Host.Outcome State Fault Refusal :=
  .next (atIdx (load8 (eor8 .a)) m st)

/-- EORA, extended (R166). -/
def execEoraExt (addr : Word) (st : State) : Host.Outcome State Fault Refusal :=
  .next (atExt (load8 (eor8 .a)) addr st)

/-- EORB, immediate (R167). -/
def execEorbImm (imm : Byte) (st : State) : Host.Outcome State Fault Refusal :=
  .next (eor8 .b imm st)

/-- EORB, direct (R167). -/
def execEorbDir (lo : Byte) (st : State) : Host.Outcome State Fault Refusal :=
  .next (atDir (load8 (eor8 .b)) lo st)

/-- EORB, indexed (R167). -/
def execEorbIdx (m : Idx) (st : State) : Host.Outcome State Fault Refusal :=
  .next (atIdx (load8 (eor8 .b)) m st)

/-- EORB, extended (R167). -/
def execEorbExt (addr : Word) (st : State) : Host.Outcome State Fault Refusal :=
  .next (atExt (load8 (eor8 .b)) addr st)

/-- ORA, immediate (R168). -/
def execOraImm (imm : Byte) (st : State) : Host.Outcome State Fault Refusal :=
  .next (or8 .a imm st)

/-- ORA, direct (R168). -/
def execOraDir (lo : Byte) (st : State) : Host.Outcome State Fault Refusal :=
  .next (atDir (load8 (or8 .a)) lo st)

/-- ORA, indexed (R168). -/
def execOraIdx (m : Idx) (st : State) : Host.Outcome State Fault Refusal :=
  .next (atIdx (load8 (or8 .a)) m st)

/-- ORA, extended (R168). -/
def execOraExt (addr : Word) (st : State) : Host.Outcome State Fault Refusal :=
  .next (atExt (load8 (or8 .a)) addr st)

/-- ORB, immediate (R169). -/
def execOrbImm (imm : Byte) (st : State) : Host.Outcome State Fault Refusal :=
  .next (or8 .b imm st)

/-- ORB, direct (R169). -/
def execOrbDir (lo : Byte) (st : State) : Host.Outcome State Fault Refusal :=
  .next (atDir (load8 (or8 .b)) lo st)

/-- ORB, indexed (R169). -/
def execOrbIdx (m : Idx) (st : State) : Host.Outcome State Fault Refusal :=
  .next (atIdx (load8 (or8 .b)) m st)

/-- ORB, extended (R169). -/
def execOrbExt (addr : Word) (st : State) : Host.Outcome State Fault Refusal :=
  .next (atExt (load8 (or8 .b)) addr st)

/-- LDA, immediate (R170). -/
def execLdaImm (imm : Byte) (st : State) : Host.Outcome State Fault Refusal :=
  .next (ld8 .a imm st)

/-- LDA, direct (R170). -/
def execLdaDir (lo : Byte) (st : State) : Host.Outcome State Fault Refusal :=
  .next (atDir (load8 (ld8 .a)) lo st)

/-- LDA, indexed (R170). -/
def execLdaIdx (m : Idx) (st : State) : Host.Outcome State Fault Refusal :=
  .next (atIdx (load8 (ld8 .a)) m st)

/-- LDA, extended (R170). -/
def execLdaExt (addr : Word) (st : State) : Host.Outcome State Fault Refusal :=
  .next (atExt (load8 (ld8 .a)) addr st)

/-- LDB, immediate (R171). -/
def execLdbImm (imm : Byte) (st : State) : Host.Outcome State Fault Refusal :=
  .next (ld8 .b imm st)

/-- LDB, direct (R171). -/
def execLdbDir (lo : Byte) (st : State) : Host.Outcome State Fault Refusal :=
  .next (atDir (load8 (ld8 .b)) lo st)

/-- LDB, indexed (R171). -/
def execLdbIdx (m : Idx) (st : State) : Host.Outcome State Fault Refusal :=
  .next (atIdx (load8 (ld8 .b)) m st)

/-- LDB, extended (R171). -/
def execLdbExt (addr : Word) (st : State) : Host.Outcome State Fault Refusal :=
  .next (atExt (load8 (ld8 .b)) addr st)

/-- STA, direct (R172). -/
def execStaDir (lo : Byte) (st : State) : Host.Outcome State Fault Refusal :=
  .next (atDir (st8 .a) lo st)

/-- STA, indexed (R172). -/
def execStaIdx (m : Idx) (st : State) : Host.Outcome State Fault Refusal :=
  .next (atIdx (st8 .a) m st)

/-- STA, extended (R172). -/
def execStaExt (addr : Word) (st : State) : Host.Outcome State Fault Refusal :=
  .next (atExt (st8 .a) addr st)

/-- STB, direct (R173). -/
def execStbDir (lo : Byte) (st : State) : Host.Outcome State Fault Refusal :=
  .next (atDir (st8 .b) lo st)

/-- STB, indexed (R173). -/
def execStbIdx (m : Idx) (st : State) : Host.Outcome State Fault Refusal :=
  .next (atIdx (st8 .b) m st)

/-- STB, extended (R173). -/
def execStbExt (addr : Word) (st : State) : Host.Outcome State Fault Refusal :=
  .next (atExt (st8 .b) addr st)

end Sys2Proof.Machine
end

