-- ==== Sys2Proof/Machine/AluSingle.lean ====
section
/-! DEFINITION. 8-bit single-operand instructions, DAA and MUL (spec 41_alu8_single_operand.md): each operation
once, on any operand byte, run on memory (R200) or on an accumulator (R201), and one meaning per row. -/

namespace Sys2Proof.Machine

/-- An operation on one operand byte: the result, and the flags it writes as a change of the state. -/
structure Unary where
  /-- The result for an operand and the flags before. -/
  result : Byte → CC → Byte
  /-- The state with the flags of that operand written. -/
  flags : Byte → State → State

/-- Flags N, Z, V, C of a result; H, E, F, I stay. -/
def writeNZVC (f : Byte → CC → Alu 8) (m : Byte) (st : State) : State :=
  { st with cc := st.cc.setNZVC (f m st.cc) }

/-- NEG: H becomes a free bit (R202, R203). -/
def negOp : Unary where
  result m _ := (neg8 m).r
  flags m st := (writeNZVC (fun m _ => neg8 m) m st).undefH

/-- COM (R206). -/
def comOp : Unary where
  result m _ := (com8 m).r
  flags m st := writeNZVC (fun m _ => com8 m) m st

/-- LSR: V stays (R210). -/
def lsrOp : Unary where
  result m _ := shiftRight8 false m
  flags m st := writeNZVC (fun m cc => right8 false m cc.v) m st

/-- ROR: the old carry enters bit 7; V stays (R214). -/
def rorOp : Unary where
  result m cc := shiftRight8 cc.c m
  flags m st := writeNZVC (fun m cc => right8 cc.c m cc.v) m st

/-- ASR: V stays; H becomes a free bit (R218). -/
def asrOp : Unary where
  result m _ := shiftRight8 m.msb m
  flags m st := (writeNZVC (fun m cc => right8 m.msb m cc.v) m st).undefH

/-- ASL, also LSL: H becomes a free bit (R222). -/
def aslOp : Unary where
  result m _ := shiftLeft8 m false
  flags m st := (writeNZVC (fun m _ => left8 m false) m st).undefH

/-- ROL: the old carry enters bit 0 (R226). -/
def rolOp : Unary where
  result m cc := shiftLeft8 m cc.c
  flags m st := writeNZVC (fun m cc => left8 m cc.c) m st

/-- DEC: C stays (R230). -/
def decOp : Unary where
  result m _ := m - 1#8
  flags m st := writeNZVC (fun m cc => dec8 m cc.c) m st

/-- INC: C stays (R234). -/
def incOp : Unary where
  result m _ := m + 1#8
  flags m st := writeNZVC (fun m cc => inc8 m cc.c) m st

/-- CLR: N, V and C are cleared, Z is set, H stays (R242). -/
def clrOp : Unary where
  result _ _ := 0x00#8
  flags _ st := { st with cc := { st.cc with n := false, z := true, v := false, c := false } }

/-- TST: the flags of the operand, V cleared; H and C stay (R238). -/
def tst (m : Byte) (st : State) : State := { st with cc := st.cc.setNZ0 m }

/-- The memory form of a read-modify-write instruction: read the byte at EA, write the result back (R200). -/
def modifyMem (op : Unary) (ea : Word) (st : State) : State :=
  op.flags (st.read8 ea) (st.write8 ea (op.result (st.read8 ea) st.cc))

/-- The accumulator form (R201). -/
def modifyAcc (op : Unary) (r : Acc) (st : State) : State :=
  op.flags (st.acc r) (st.setAcc r (op.result (st.acc r) st.cc))

/-- DAA: A is adjusted, V becomes a free bit, H stays (R246). -/
def decimalAdjust (st : State) : State :=
  let o := daa8 st.a st.cc.h st.cc.c st.cc.v
  { st with a := o.r, cc := st.cc.setNZVC o }.undefV

/-- MUL: the unsigned product in D; Z of the product, C its bit 7; H, N, V stay (R247). -/
def multiply (st : State) : State :=
  let p : Word := zext8 st.a * zext8 st.b
  { st.setD p with cc := { st.cc with z := isZero p, c := p.getLsbD 7 } }

/-! ### The rows -/

/-- NEG, direct (R203). -/
def execNegDir (lo : Byte) (st : State) : Host.Outcome State Fault Refusal :=
  .next (atDir (modifyMem negOp) lo st)

/-- NEG, indexed (R203). -/
def execNegIdx (m : Idx) (st : State) : Host.Outcome State Fault Refusal :=
  .next (atIdx (modifyMem negOp) m st)

/-- NEG, extended (R203). -/
def execNegExt (addr : Word) (st : State) : Host.Outcome State Fault Refusal :=
  .next (atExt (modifyMem negOp) addr st)

/-- NEGA (R204). -/
def execNega (st : State) : Host.Outcome State Fault Refusal :=
  .next (modifyAcc negOp .a st)

/-- NEGB (R205). -/
def execNegb (st : State) : Host.Outcome State Fault Refusal :=
  .next (modifyAcc negOp .b st)

/-- COM, direct (R207). -/
def execComDir (lo : Byte) (st : State) : Host.Outcome State Fault Refusal :=
  .next (atDir (modifyMem comOp) lo st)

/-- COM, indexed (R207). -/
def execComIdx (m : Idx) (st : State) : Host.Outcome State Fault Refusal :=
  .next (atIdx (modifyMem comOp) m st)

/-- COM, extended (R207). -/
def execComExt (addr : Word) (st : State) : Host.Outcome State Fault Refusal :=
  .next (atExt (modifyMem comOp) addr st)

/-- COMA (R208). -/
def execComa (st : State) : Host.Outcome State Fault Refusal :=
  .next (modifyAcc comOp .a st)

/-- COMB (R209). -/
def execComb (st : State) : Host.Outcome State Fault Refusal :=
  .next (modifyAcc comOp .b st)

/-- LSR, direct (R211). -/
def execLsrDir (lo : Byte) (st : State) : Host.Outcome State Fault Refusal :=
  .next (atDir (modifyMem lsrOp) lo st)

/-- LSR, indexed (R211). -/
def execLsrIdx (m : Idx) (st : State) : Host.Outcome State Fault Refusal :=
  .next (atIdx (modifyMem lsrOp) m st)

/-- LSR, extended (R211). -/
def execLsrExt (addr : Word) (st : State) : Host.Outcome State Fault Refusal :=
  .next (atExt (modifyMem lsrOp) addr st)

/-- LSRA (R212). -/
def execLsra (st : State) : Host.Outcome State Fault Refusal :=
  .next (modifyAcc lsrOp .a st)

/-- LSRB (R213). -/
def execLsrb (st : State) : Host.Outcome State Fault Refusal :=
  .next (modifyAcc lsrOp .b st)

/-- ROR, direct (R215). -/
def execRorDir (lo : Byte) (st : State) : Host.Outcome State Fault Refusal :=
  .next (atDir (modifyMem rorOp) lo st)

/-- ROR, indexed (R215). -/
def execRorIdx (m : Idx) (st : State) : Host.Outcome State Fault Refusal :=
  .next (atIdx (modifyMem rorOp) m st)

/-- ROR, extended (R215). -/
def execRorExt (addr : Word) (st : State) : Host.Outcome State Fault Refusal :=
  .next (atExt (modifyMem rorOp) addr st)

/-- RORA (R216). -/
def execRora (st : State) : Host.Outcome State Fault Refusal :=
  .next (modifyAcc rorOp .a st)

/-- RORB (R217). -/
def execRorb (st : State) : Host.Outcome State Fault Refusal :=
  .next (modifyAcc rorOp .b st)

/-- ASR, direct (R219). -/
def execAsrDir (lo : Byte) (st : State) : Host.Outcome State Fault Refusal :=
  .next (atDir (modifyMem asrOp) lo st)

/-- ASR, indexed (R219). -/
def execAsrIdx (m : Idx) (st : State) : Host.Outcome State Fault Refusal :=
  .next (atIdx (modifyMem asrOp) m st)

/-- ASR, extended (R219). -/
def execAsrExt (addr : Word) (st : State) : Host.Outcome State Fault Refusal :=
  .next (atExt (modifyMem asrOp) addr st)

/-- ASRA (R220). -/
def execAsra (st : State) : Host.Outcome State Fault Refusal :=
  .next (modifyAcc asrOp .a st)

/-- ASRB (R221). -/
def execAsrb (st : State) : Host.Outcome State Fault Refusal :=
  .next (modifyAcc asrOp .b st)

/-- ASL/LSL, direct (R223). -/
def execAslDir (lo : Byte) (st : State) : Host.Outcome State Fault Refusal :=
  .next (atDir (modifyMem aslOp) lo st)

/-- ASL/LSL, indexed (R223). -/
def execAslIdx (m : Idx) (st : State) : Host.Outcome State Fault Refusal :=
  .next (atIdx (modifyMem aslOp) m st)

/-- ASL/LSL, extended (R223). -/
def execAslExt (addr : Word) (st : State) : Host.Outcome State Fault Refusal :=
  .next (atExt (modifyMem aslOp) addr st)

/-- ASLA/LSLA (R224). -/
def execAsla (st : State) : Host.Outcome State Fault Refusal :=
  .next (modifyAcc aslOp .a st)

/-- ASLB/LSLB (R225). -/
def execAslb (st : State) : Host.Outcome State Fault Refusal :=
  .next (modifyAcc aslOp .b st)

/-- ROL, direct (R227). -/
def execRolDir (lo : Byte) (st : State) : Host.Outcome State Fault Refusal :=
  .next (atDir (modifyMem rolOp) lo st)

/-- ROL, indexed (R227). -/
def execRolIdx (m : Idx) (st : State) : Host.Outcome State Fault Refusal :=
  .next (atIdx (modifyMem rolOp) m st)

/-- ROL, extended (R227). -/
def execRolExt (addr : Word) (st : State) : Host.Outcome State Fault Refusal :=
  .next (atExt (modifyMem rolOp) addr st)

/-- ROLA (R228). -/
def execRola (st : State) : Host.Outcome State Fault Refusal :=
  .next (modifyAcc rolOp .a st)

/-- ROLB (R229). -/
def execRolb (st : State) : Host.Outcome State Fault Refusal :=
  .next (modifyAcc rolOp .b st)

/-- DEC, direct (R231). -/
def execDecDir (lo : Byte) (st : State) : Host.Outcome State Fault Refusal :=
  .next (atDir (modifyMem decOp) lo st)

/-- DEC, indexed (R231). -/
def execDecIdx (m : Idx) (st : State) : Host.Outcome State Fault Refusal :=
  .next (atIdx (modifyMem decOp) m st)

/-- DEC, extended (R231). -/
def execDecExt (addr : Word) (st : State) : Host.Outcome State Fault Refusal :=
  .next (atExt (modifyMem decOp) addr st)

/-- DECA (R232). -/
def execDeca (st : State) : Host.Outcome State Fault Refusal :=
  .next (modifyAcc decOp .a st)

/-- DECB (R233). -/
def execDecb (st : State) : Host.Outcome State Fault Refusal :=
  .next (modifyAcc decOp .b st)

/-- INC, direct (R235). -/
def execIncDir (lo : Byte) (st : State) : Host.Outcome State Fault Refusal :=
  .next (atDir (modifyMem incOp) lo st)

/-- INC, indexed (R235). -/
def execIncIdx (m : Idx) (st : State) : Host.Outcome State Fault Refusal :=
  .next (atIdx (modifyMem incOp) m st)

/-- INC, extended (R235). -/
def execIncExt (addr : Word) (st : State) : Host.Outcome State Fault Refusal :=
  .next (atExt (modifyMem incOp) addr st)

/-- INCA (R236). -/
def execInca (st : State) : Host.Outcome State Fault Refusal :=
  .next (modifyAcc incOp .a st)

/-- INCB (R237). -/
def execIncb (st : State) : Host.Outcome State Fault Refusal :=
  .next (modifyAcc incOp .b st)

/-- CLR, direct (R243). -/
def execClrDir (lo : Byte) (st : State) : Host.Outcome State Fault Refusal :=
  .next (atDir (modifyMem clrOp) lo st)

/-- CLR, indexed (R243). -/
def execClrIdx (m : Idx) (st : State) : Host.Outcome State Fault Refusal :=
  .next (atIdx (modifyMem clrOp) m st)

/-- CLR, extended (R243). -/
def execClrExt (addr : Word) (st : State) : Host.Outcome State Fault Refusal :=
  .next (atExt (modifyMem clrOp) addr st)

/-- CLRA (R244). -/
def execClra (st : State) : Host.Outcome State Fault Refusal :=
  .next (modifyAcc clrOp .a st)

/-- CLRB (R245). -/
def execClrb (st : State) : Host.Outcome State Fault Refusal :=
  .next (modifyAcc clrOp .b st)

/-- TST, direct (R239). -/
def execTstDir (lo : Byte) (st : State) : Host.Outcome State Fault Refusal :=
  .next (atDir (load8 tst) lo st)

/-- TST, indexed (R239). -/
def execTstIdx (m : Idx) (st : State) : Host.Outcome State Fault Refusal :=
  .next (atIdx (load8 tst) m st)

/-- TST, extended (R239). -/
def execTstExt (addr : Word) (st : State) : Host.Outcome State Fault Refusal :=
  .next (atExt (load8 tst) addr st)

/-- TSTA (R240). -/
def execTsta (st : State) : Host.Outcome State Fault Refusal :=
  .next (tst st.a st)

/-- TSTB (R241). -/
def execTstb (st : State) : Host.Outcome State Fault Refusal :=
  .next (tst st.b st)

/-- DAA (R246). -/
def execDaa (st : State) : Host.Outcome State Fault Refusal :=
  .next (decimalAdjust st)

/-- MUL (R247). -/
def execMul (st : State) : Host.Outcome State Fault Refusal :=
  .next (multiply st)

end Sys2Proof.Machine
end

