-- ==== Sys2Proof/Machine/Acc16.lean ====
section
/-! DEFINITION. 16-bit accumulator instructions (spec 42_16bit.md), and the 16-bit compare, load and store
operations that the index registers share with D (R280, R300); one meaning per row. R288 is the index of them, with
the opcodes that the rows of Decode.lean hold and the cycles that `instrCycles` of Timing.lean holds. -/

namespace Sys2Proof.Machine

/-- The flags of `reg - M16`; H stays (R283, R301 to R304). -/
def cmp16 (r : Reg16) (m : Word) (st : State) : State := { st with cc := st.cc.setNZVC (sub16 (st.reg16 r) m) }

/-- `M:M+1 -> reg`; N and Z follow the word, V is cleared, H and C stay; a load of S arms NMI (R284, R305 to
R308). -/
def ld16 (r : Reg16) (m : Word) (st : State) : State := { st.loadReg16 r m with cc := st.cc.setNZ0 m }

/-- `reg -> M:M+1`; N and Z follow the word stored, V is cleared, H and C stay (R285, R309 to R312). -/
def st16 (r : Reg16) (ea : Word) (st : State) : State :=
  { st.write16 ea (st.reg16 r) with cc := st.cc.setNZ0 (st.reg16 r) }

/-- ADDD: `D + M16`; H stays (R281). -/
def addToD (m : Word) (st : State) : State :=
  let o := add16 st.d m
  { st.setD o.r with cc := st.cc.setNZVC o }

/-- SUBD: `D - M16`; H stays (R282). -/
def subFromD (m : Word) (st : State) : State :=
  let o := sub16 st.d m
  { st.setD o.r with cc := st.cc.setNZVC o }

/-- SEX: A takes copies of bit 7 of B; N and Z of D, V becomes a free bit, H and C stay (R287). -/
def signExtendB (st : State) : State :=
  { st.setD (sext8 st.b) with cc := { st.cc with n := isNeg (sext8 st.b), z := isZero (sext8 st.b) } }.undefV

/-! ### The rows -/

/-- ADDD, immediate (R281). -/
def execAdddImm (imm : Word) (st : State) : Host.Outcome State Fault Refusal :=
  .next (addToD imm st)

/-- ADDD, direct (R281). -/
def execAdddDir (lo : Byte) (st : State) : Host.Outcome State Fault Refusal :=
  .next (atDir (load16 addToD) lo st)

/-- ADDD, indexed (R281). -/
def execAdddIdx (m : Idx) (st : State) : Host.Outcome State Fault Refusal :=
  .next (atIdx (load16 addToD) m st)

/-- ADDD, extended (R281). -/
def execAdddExt (addr : Word) (st : State) : Host.Outcome State Fault Refusal :=
  .next (atExt (load16 addToD) addr st)

/-- SUBD, immediate (R282). -/
def execSubdImm (imm : Word) (st : State) : Host.Outcome State Fault Refusal :=
  .next (subFromD imm st)

/-- SUBD, direct (R282). -/
def execSubdDir (lo : Byte) (st : State) : Host.Outcome State Fault Refusal :=
  .next (atDir (load16 subFromD) lo st)

/-- SUBD, indexed (R282). -/
def execSubdIdx (m : Idx) (st : State) : Host.Outcome State Fault Refusal :=
  .next (atIdx (load16 subFromD) m st)

/-- SUBD, extended (R282). -/
def execSubdExt (addr : Word) (st : State) : Host.Outcome State Fault Refusal :=
  .next (atExt (load16 subFromD) addr st)

/-- CMPD, immediate (R283). -/
def execCmpdImm (imm : Word) (st : State) : Host.Outcome State Fault Refusal :=
  .next (cmp16 .d imm st)

/-- CMPD, direct (R283). -/
def execCmpdDir (lo : Byte) (st : State) : Host.Outcome State Fault Refusal :=
  .next (atDir (load16 (cmp16 .d)) lo st)

/-- CMPD, indexed (R283). -/
def execCmpdIdx (m : Idx) (st : State) : Host.Outcome State Fault Refusal :=
  .next (atIdx (load16 (cmp16 .d)) m st)

/-- CMPD, extended (R283). -/
def execCmpdExt (addr : Word) (st : State) : Host.Outcome State Fault Refusal :=
  .next (atExt (load16 (cmp16 .d)) addr st)

/-- LDD, immediate (R284). -/
def execLddImm (imm : Word) (st : State) : Host.Outcome State Fault Refusal :=
  .next (ld16 .d imm st)

/-- LDD, direct (R284). -/
def execLddDir (lo : Byte) (st : State) : Host.Outcome State Fault Refusal :=
  .next (atDir (load16 (ld16 .d)) lo st)

/-- LDD, indexed (R284). -/
def execLddIdx (m : Idx) (st : State) : Host.Outcome State Fault Refusal :=
  .next (atIdx (load16 (ld16 .d)) m st)

/-- LDD, extended (R284). -/
def execLddExt (addr : Word) (st : State) : Host.Outcome State Fault Refusal :=
  .next (atExt (load16 (ld16 .d)) addr st)

/-- STD, direct (R285). -/
def execStdDir (lo : Byte) (st : State) : Host.Outcome State Fault Refusal :=
  .next (atDir (st16 .d) lo st)

/-- STD, indexed (R285). -/
def execStdIdx (m : Idx) (st : State) : Host.Outcome State Fault Refusal :=
  .next (atIdx (st16 .d) m st)

/-- STD, extended (R285). -/
def execStdExt (addr : Word) (st : State) : Host.Outcome State Fault Refusal :=
  .next (atExt (st16 .d) addr st)

/-- SEX (R287). -/
def execSex (st : State) : Host.Outcome State Fault Refusal :=
  .next (signExtendB st)

end Sys2Proof.Machine
end

