-- ==== Sys2Proof/Machine/IndexStack.lean ====
section
/-! DEFINITION. Index register and stack pointer instructions, push and pull, TFR and EXG
(spec 43_index_stack.md); one meaning per row. -/

namespace Sys2Proof.Machine

/-- LEAX and LEAY: the effective address itself goes to the register after any auto increment; Z follows it, the
other flags stay (R313 to R315). -/
def leaZ (r : Reg16) (ea : Word) (st : State) : State :=
  { st.assignReg16 r ea with cc := { st.cc with z := isZero ea } }

/-- LEAU and LEAS: no flag is written; LEAS arms NMI (R313, R316, R317). -/
def leaNoFlags (r : Reg16) (ea : Word) (st : State) : State := st.assignReg16 r ea

/-- ABX: B is added to X as an unsigned number; no flag is written (R318). -/
def addBToX (st : State) : State := { st with x := st.x + zext8 st.b }

/-- TFR: `reg[d] <- reg[s]`, refused for registers of unlike size (R326). -/
def transfer (src dst : RegCode) (st : State) : Host.Outcome State Fault Refusal :=
  match st.writeCode dst (st.readCode src) with
  | some st' => .next st'
  | none => .refused .invalidRegisterPair

/-- EXG: both registers are read before either is written (R327). -/
def exchange (src dst : RegCode) (st : State) : Host.Outcome State Fault Refusal :=
  match st.writeCode src (st.readCode dst) with
  | some s1 =>
    match s1.writeCode dst (st.readCode src) with
    | some s2 => .next s2
    | none => .refused .invalidRegisterPair
  | none => .refused .invalidRegisterPair

/-! ### The rows -/

/-- CMPX, immediate (R301). -/
def execCmpxImm (imm : Word) (st : State) : Host.Outcome State Fault Refusal :=
  .next (cmp16 .x imm st)

/-- CMPX, direct (R301). -/
def execCmpxDir (lo : Byte) (st : State) : Host.Outcome State Fault Refusal :=
  .next (atDir (load16 (cmp16 .x)) lo st)

/-- CMPX, indexed (R301). -/
def execCmpxIdx (m : Idx) (st : State) : Host.Outcome State Fault Refusal :=
  .next (atIdx (load16 (cmp16 .x)) m st)

/-- CMPX, extended (R301). -/
def execCmpxExt (addr : Word) (st : State) : Host.Outcome State Fault Refusal :=
  .next (atExt (load16 (cmp16 .x)) addr st)

/-- CMPY, immediate (R302). -/
def execCmpyImm (imm : Word) (st : State) : Host.Outcome State Fault Refusal :=
  .next (cmp16 .y imm st)

/-- CMPY, direct (R302). -/
def execCmpyDir (lo : Byte) (st : State) : Host.Outcome State Fault Refusal :=
  .next (atDir (load16 (cmp16 .y)) lo st)

/-- CMPY, indexed (R302). -/
def execCmpyIdx (m : Idx) (st : State) : Host.Outcome State Fault Refusal :=
  .next (atIdx (load16 (cmp16 .y)) m st)

/-- CMPY, extended (R302). -/
def execCmpyExt (addr : Word) (st : State) : Host.Outcome State Fault Refusal :=
  .next (atExt (load16 (cmp16 .y)) addr st)

/-- CMPU, immediate (R303). -/
def execCmpuImm (imm : Word) (st : State) : Host.Outcome State Fault Refusal :=
  .next (cmp16 .u imm st)

/-- CMPU, direct (R303). -/
def execCmpuDir (lo : Byte) (st : State) : Host.Outcome State Fault Refusal :=
  .next (atDir (load16 (cmp16 .u)) lo st)

/-- CMPU, indexed (R303). -/
def execCmpuIdx (m : Idx) (st : State) : Host.Outcome State Fault Refusal :=
  .next (atIdx (load16 (cmp16 .u)) m st)

/-- CMPU, extended (R303). -/
def execCmpuExt (addr : Word) (st : State) : Host.Outcome State Fault Refusal :=
  .next (atExt (load16 (cmp16 .u)) addr st)

/-- CMPS, immediate (R304). -/
def execCmpsImm (imm : Word) (st : State) : Host.Outcome State Fault Refusal :=
  .next (cmp16 .s imm st)

/-- CMPS, direct (R304). -/
def execCmpsDir (lo : Byte) (st : State) : Host.Outcome State Fault Refusal :=
  .next (atDir (load16 (cmp16 .s)) lo st)

/-- CMPS, indexed (R304). -/
def execCmpsIdx (m : Idx) (st : State) : Host.Outcome State Fault Refusal :=
  .next (atIdx (load16 (cmp16 .s)) m st)

/-- CMPS, extended (R304). -/
def execCmpsExt (addr : Word) (st : State) : Host.Outcome State Fault Refusal :=
  .next (atExt (load16 (cmp16 .s)) addr st)

/-- LDX, immediate (R305). -/
def execLdxImm (imm : Word) (st : State) : Host.Outcome State Fault Refusal :=
  .next (ld16 .x imm st)

/-- LDX, direct (R305). -/
def execLdxDir (lo : Byte) (st : State) : Host.Outcome State Fault Refusal :=
  .next (atDir (load16 (ld16 .x)) lo st)

/-- LDX, indexed (R305). -/
def execLdxIdx (m : Idx) (st : State) : Host.Outcome State Fault Refusal :=
  .next (atIdx (load16 (ld16 .x)) m st)

/-- LDX, extended (R305). -/
def execLdxExt (addr : Word) (st : State) : Host.Outcome State Fault Refusal :=
  .next (atExt (load16 (ld16 .x)) addr st)

/-- LDY, immediate (R306). -/
def execLdyImm (imm : Word) (st : State) : Host.Outcome State Fault Refusal :=
  .next (ld16 .y imm st)

/-- LDY, direct (R306). -/
def execLdyDir (lo : Byte) (st : State) : Host.Outcome State Fault Refusal :=
  .next (atDir (load16 (ld16 .y)) lo st)

/-- LDY, indexed (R306). -/
def execLdyIdx (m : Idx) (st : State) : Host.Outcome State Fault Refusal :=
  .next (atIdx (load16 (ld16 .y)) m st)

/-- LDY, extended (R306). -/
def execLdyExt (addr : Word) (st : State) : Host.Outcome State Fault Refusal :=
  .next (atExt (load16 (ld16 .y)) addr st)

/-- LDU, immediate (R307). -/
def execLduImm (imm : Word) (st : State) : Host.Outcome State Fault Refusal :=
  .next (ld16 .u imm st)

/-- LDU, direct (R307). -/
def execLduDir (lo : Byte) (st : State) : Host.Outcome State Fault Refusal :=
  .next (atDir (load16 (ld16 .u)) lo st)

/-- LDU, indexed (R307). -/
def execLduIdx (m : Idx) (st : State) : Host.Outcome State Fault Refusal :=
  .next (atIdx (load16 (ld16 .u)) m st)

/-- LDU, extended (R307). -/
def execLduExt (addr : Word) (st : State) : Host.Outcome State Fault Refusal :=
  .next (atExt (load16 (ld16 .u)) addr st)

/-- LDS, immediate (R308). -/
def execLdsImm (imm : Word) (st : State) : Host.Outcome State Fault Refusal :=
  .next (ld16 .s imm st)

/-- LDS, direct (R308). -/
def execLdsDir (lo : Byte) (st : State) : Host.Outcome State Fault Refusal :=
  .next (atDir (load16 (ld16 .s)) lo st)

/-- LDS, indexed (R308). -/
def execLdsIdx (m : Idx) (st : State) : Host.Outcome State Fault Refusal :=
  .next (atIdx (load16 (ld16 .s)) m st)

/-- LDS, extended (R308). -/
def execLdsExt (addr : Word) (st : State) : Host.Outcome State Fault Refusal :=
  .next (atExt (load16 (ld16 .s)) addr st)

/-- STX, direct (R309). -/
def execStxDir (lo : Byte) (st : State) : Host.Outcome State Fault Refusal :=
  .next (atDir (st16 .x) lo st)

/-- STX, indexed (R309). -/
def execStxIdx (m : Idx) (st : State) : Host.Outcome State Fault Refusal :=
  .next (atIdx (st16 .x) m st)

/-- STX, extended (R309). -/
def execStxExt (addr : Word) (st : State) : Host.Outcome State Fault Refusal :=
  .next (atExt (st16 .x) addr st)

/-- STY, direct (R310). -/
def execStyDir (lo : Byte) (st : State) : Host.Outcome State Fault Refusal :=
  .next (atDir (st16 .y) lo st)

/-- STY, indexed (R310). -/
def execStyIdx (m : Idx) (st : State) : Host.Outcome State Fault Refusal :=
  .next (atIdx (st16 .y) m st)

/-- STY, extended (R310). -/
def execStyExt (addr : Word) (st : State) : Host.Outcome State Fault Refusal :=
  .next (atExt (st16 .y) addr st)

/-- STU, direct (R311). -/
def execStuDir (lo : Byte) (st : State) : Host.Outcome State Fault Refusal :=
  .next (atDir (st16 .u) lo st)

/-- STU, indexed (R311). -/
def execStuIdx (m : Idx) (st : State) : Host.Outcome State Fault Refusal :=
  .next (atIdx (st16 .u) m st)

/-- STU, extended (R311). -/
def execStuExt (addr : Word) (st : State) : Host.Outcome State Fault Refusal :=
  .next (atExt (st16 .u) addr st)

/-- STS, direct (R312). -/
def execStsDir (lo : Byte) (st : State) : Host.Outcome State Fault Refusal :=
  .next (atDir (st16 .s) lo st)

/-- STS, indexed (R312). -/
def execStsIdx (m : Idx) (st : State) : Host.Outcome State Fault Refusal :=
  .next (atIdx (st16 .s) m st)

/-- STS, extended (R312). -/
def execStsExt (addr : Word) (st : State) : Host.Outcome State Fault Refusal :=
  .next (atExt (st16 .s) addr st)

/-- LEAX (R314). -/
def execLeax (m : Idx) (st : State) : Host.Outcome State Fault Refusal :=
  .next (atIdx (leaZ .x) m st)

/-- LEAY (R315). -/
def execLeay (m : Idx) (st : State) : Host.Outcome State Fault Refusal :=
  .next (atIdx (leaZ .y) m st)

/-- LEAU (R316). -/
def execLeau (m : Idx) (st : State) : Host.Outcome State Fault Refusal :=
  .next (atIdx (leaNoFlags .u) m st)

/-- LEAS (R317). -/
def execLeas (m : Idx) (st : State) : Host.Outcome State Fault Refusal :=
  .next (atIdx (leaNoFlags .s) m st)

/-- ABX (R318). -/
def execAbx (st : State) : Host.Outcome State Fault Refusal :=
  .next (addBToX st)

/-- PSHS (R321). -/
def execPshs (pb : Byte) (st : State) : Host.Outcome State Fault Refusal :=
  .next (st.pushRegs .s pb)

/-- PSHU (R322). -/
def execPshu (pb : Byte) (st : State) : Host.Outcome State Fault Refusal :=
  .next (st.pushRegs .u pb)

/-- PULS (R323). -/
def execPuls (pb : Byte) (st : State) : Host.Outcome State Fault Refusal :=
  .next (st.pullRegs .s pb)

/-- PULU (R324). -/
def execPulu (pb : Byte) (st : State) : Host.Outcome State Fault Refusal :=
  .next (st.pullRegs .u pb)

/-- TFR (R326). -/
def execTfr (src : RegCode) (dst : RegCode) (st : State) : Host.Outcome State Fault Refusal :=
  transfer src dst st

/-- EXG (R327). -/
def execExg (src : RegCode) (dst : RegCode) (st : State) : Host.Outcome State Fault Refusal :=
  exchange src dst st

end Sys2Proof.Machine
end

