-- ==== Sys2Proof/Machine/Branches.lean ====
section
/-! DEFINITION. Branch instructions (spec 44_branches.md): the sixteen conditions of R351, short and long
branches, BSR and LBSR; one meaning per row. R387 is the index of them; its opcodes are the rows `page1Row1`,
`page1Row2`, `page1Row8` and `page2Row2` of Decode.lean. -/

namespace Sys2Proof.Machine

/-- The conditions of the branch opcodes, by the low nibble of the opcode (R351). -/
inductive Cond where
  | always | never | higher | lowerOrSame | carryClear | carrySet | notEqual | equal
  | overflowClear | overflowSet | plus | minus | greaterOrEqual | less | greater | lessOrEqual
deriving DecidableEq, Repr

/-- `cond(k)` (R351). -/
def Cond.holds : Cond → CC → Bool
  | .always, _ => true
  | .never, _ => false
  | .higher, cc => !cc.c && !cc.z
  | .lowerOrSame, cc => cc.c || cc.z
  | .carryClear, cc => !cc.c
  | .carrySet, cc => cc.c
  | .notEqual, cc => !cc.z
  | .equal, cc => cc.z
  | .overflowClear, cc => !cc.v
  | .overflowSet, cc => cc.v
  | .plus, cc => !cc.n
  | .minus, cc => cc.n
  | .greaterOrEqual, cc => !(cc.n ^^ cc.v)
  | .less, cc => cc.n ^^ cc.v
  | .greater, cc => !cc.z && !(cc.n ^^ cc.v)
  | .lessOrEqual, cc => cc.z || (cc.n ^^ cc.v)

/-- The target of a short branch: PC, the address of the next instruction, plus the signed offset (R98, R350). -/
def State.shortTarget (st : State) (off : Byte) : Word := st.pc + sext8 off

/-- The target of a long branch (R99, R350). -/
def State.longTarget (st : State) (off : Word) : Word := st.pc + off

/-- A branch: PC takes the target if the condition holds; nothing else changes (R350). -/
def branch (k : Cond) (target : Word) (st : State) : State :=
  if k.holds st.cc then { st with pc := target } else st

/-- A call: the return address is pushed on S, then PC takes the target (R384, R385, R405). -/
def call (target : Word) (st : State) : State := { st.push16 .s st.pc with pc := target }

/-! ### The rows -/

/-- BRA (R352). -/
def execBra (off : Byte) (st : State) : Host.Outcome State Fault Refusal :=
  .next (branch .always (st.shortTarget off) st)

/-- BRN (R353). -/
def execBrn (off : Byte) (st : State) : Host.Outcome State Fault Refusal :=
  .next (branch .never (st.shortTarget off) st)

/-- BHI (R354). -/
def execBhi (off : Byte) (st : State) : Host.Outcome State Fault Refusal :=
  .next (branch .higher (st.shortTarget off) st)

/-- BLS (R355). -/
def execBls (off : Byte) (st : State) : Host.Outcome State Fault Refusal :=
  .next (branch .lowerOrSame (st.shortTarget off) st)

/-- BCC/BHS (R356). -/
def execBcc (off : Byte) (st : State) : Host.Outcome State Fault Refusal :=
  .next (branch .carryClear (st.shortTarget off) st)

/-- BCS/BLO (R357). -/
def execBcs (off : Byte) (st : State) : Host.Outcome State Fault Refusal :=
  .next (branch .carrySet (st.shortTarget off) st)

/-- BNE (R358). -/
def execBne (off : Byte) (st : State) : Host.Outcome State Fault Refusal :=
  .next (branch .notEqual (st.shortTarget off) st)

/-- BEQ (R359). -/
def execBeq (off : Byte) (st : State) : Host.Outcome State Fault Refusal :=
  .next (branch .equal (st.shortTarget off) st)

/-- BVC (R360). -/
def execBvc (off : Byte) (st : State) : Host.Outcome State Fault Refusal :=
  .next (branch .overflowClear (st.shortTarget off) st)

/-- BVS (R361). -/
def execBvs (off : Byte) (st : State) : Host.Outcome State Fault Refusal :=
  .next (branch .overflowSet (st.shortTarget off) st)

/-- BPL (R362). -/
def execBpl (off : Byte) (st : State) : Host.Outcome State Fault Refusal :=
  .next (branch .plus (st.shortTarget off) st)

/-- BMI (R363). -/
def execBmi (off : Byte) (st : State) : Host.Outcome State Fault Refusal :=
  .next (branch .minus (st.shortTarget off) st)

/-- BGE (R364). -/
def execBge (off : Byte) (st : State) : Host.Outcome State Fault Refusal :=
  .next (branch .greaterOrEqual (st.shortTarget off) st)

/-- BLT (R365). -/
def execBlt (off : Byte) (st : State) : Host.Outcome State Fault Refusal :=
  .next (branch .less (st.shortTarget off) st)

/-- BGT (R366). -/
def execBgt (off : Byte) (st : State) : Host.Outcome State Fault Refusal :=
  .next (branch .greater (st.shortTarget off) st)

/-- BLE (R367). -/
def execBle (off : Byte) (st : State) : Host.Outcome State Fault Refusal :=
  .next (branch .lessOrEqual (st.shortTarget off) st)

/-- LBRA (R368). -/
def execLbra (off : Word) (st : State) : Host.Outcome State Fault Refusal :=
  .next (branch .always (st.longTarget off) st)

/-- LBRN (R369). -/
def execLbrn (off : Word) (st : State) : Host.Outcome State Fault Refusal :=
  .next (branch .never (st.longTarget off) st)

/-- LBHI (R370). -/
def execLbhi (off : Word) (st : State) : Host.Outcome State Fault Refusal :=
  .next (branch .higher (st.longTarget off) st)

/-- LBLS (R371). -/
def execLbls (off : Word) (st : State) : Host.Outcome State Fault Refusal :=
  .next (branch .lowerOrSame (st.longTarget off) st)

/-- LBCC/LBHS (R372). -/
def execLbcc (off : Word) (st : State) : Host.Outcome State Fault Refusal :=
  .next (branch .carryClear (st.longTarget off) st)

/-- LBCS/LBLO (R373). -/
def execLbcs (off : Word) (st : State) : Host.Outcome State Fault Refusal :=
  .next (branch .carrySet (st.longTarget off) st)

/-- LBNE (R374). -/
def execLbne (off : Word) (st : State) : Host.Outcome State Fault Refusal :=
  .next (branch .notEqual (st.longTarget off) st)

/-- LBEQ (R375). -/
def execLbeq (off : Word) (st : State) : Host.Outcome State Fault Refusal :=
  .next (branch .equal (st.longTarget off) st)

/-- LBVC (R376). -/
def execLbvc (off : Word) (st : State) : Host.Outcome State Fault Refusal :=
  .next (branch .overflowClear (st.longTarget off) st)

/-- LBVS (R377). -/
def execLbvs (off : Word) (st : State) : Host.Outcome State Fault Refusal :=
  .next (branch .overflowSet (st.longTarget off) st)

/-- LBPL (R378). -/
def execLbpl (off : Word) (st : State) : Host.Outcome State Fault Refusal :=
  .next (branch .plus (st.longTarget off) st)

/-- LBMI (R379). -/
def execLbmi (off : Word) (st : State) : Host.Outcome State Fault Refusal :=
  .next (branch .minus (st.longTarget off) st)

/-- LBGE (R380). -/
def execLbge (off : Word) (st : State) : Host.Outcome State Fault Refusal :=
  .next (branch .greaterOrEqual (st.longTarget off) st)

/-- LBLT (R381). -/
def execLblt (off : Word) (st : State) : Host.Outcome State Fault Refusal :=
  .next (branch .less (st.longTarget off) st)

/-- LBGT (R382). -/
def execLbgt (off : Word) (st : State) : Host.Outcome State Fault Refusal :=
  .next (branch .greater (st.longTarget off) st)

/-- LBLE (R383). -/
def execLble (off : Word) (st : State) : Host.Outcome State Fault Refusal :=
  .next (branch .lessOrEqual (st.longTarget off) st)

/-- BSR (R384). -/
def execBsr (off : Byte) (st : State) : Host.Outcome State Fault Refusal :=
  .next (call (st.shortTarget off) st)

/-- LBSR (R385). -/
def execLbsr (off : Word) (st : State) : Host.Outcome State Fault Refusal :=
  .next (call (st.longTarget off) st)

end Sys2Proof.Machine
end

