-- ==== Sys2Proof/Machine/Misc.lean ====
section
/-! DEFINITION. Miscellaneous instructions (spec 45_misc.md); one meaning per row. -/

namespace Sys2Proof.Machine

/-- ANDCC: the whole CC (R400). -/
def andCC (imm : Byte) (st : State) : State := { st with cc := CC.ofByte (st.cc.toByte &&& imm) }

/-- ORCC: the whole CC (R401). -/
def orCC (imm : Byte) (st : State) : State := { st with cc := CC.ofByte (st.cc.toByte ||| imm) }

/-- JMP: the effective address becomes PC (R404). -/
def jump (ea : Word) (st : State) : State := { st with pc := ea }

/-- RTS: PC is pulled from S (R406). -/
def returnFromSubroutine (st : State) : State := { st.drop .s 2#16 with pc := st.top16 .s }

/-- CWAI: AND into CC, stack the entire state, wait (R403). The end of the wait is Machine/Interrupts.lean's
(R449). -/
def andCCAndWait (imm : Byte) (st : State) : State := { (andCC imm st).stackEntire with run := .cwaiWait }

/-- SYNC: wait; nothing is stacked (R411). The end of the wait is Machine/Interrupts.lean's (R448). -/
def synchronize (st : State) : State := { st with run := .sync }

/-! ### The rows -/

/-- ANDCC (R400). -/
def execAndcc (imm : Byte) (st : State) : Host.Outcome State Fault Refusal :=
  .next (andCC imm st)

/-- ORCC (R401). -/
def execOrcc (imm : Byte) (st : State) : Host.Outcome State Fault Refusal :=
  .next (orCC imm st)

/-- NOP (R402). -/
def execNop (st : State) : Host.Outcome State Fault Refusal :=
  .next st

/-- JMP, direct (R404). -/
def execJmpDir (lo : Byte) (st : State) : Host.Outcome State Fault Refusal :=
  .next (atDir jump lo st)

/-- JMP, indexed (R404). -/
def execJmpIdx (m : Idx) (st : State) : Host.Outcome State Fault Refusal :=
  .next (atIdx jump m st)

/-- JMP, extended (R404). -/
def execJmpExt (addr : Word) (st : State) : Host.Outcome State Fault Refusal :=
  .next (atExt jump addr st)

/-- JSR, direct (R405). -/
def execJsrDir (lo : Byte) (st : State) : Host.Outcome State Fault Refusal :=
  .next (atDir call lo st)

/-- JSR, indexed (R405). -/
def execJsrIdx (m : Idx) (st : State) : Host.Outcome State Fault Refusal :=
  .next (atIdx call m st)

/-- JSR, extended (R405). -/
def execJsrExt (addr : Word) (st : State) : Host.Outcome State Fault Refusal :=
  .next (atExt call addr st)

/-- RTS (R406). -/
def execRts (st : State) : Host.Outcome State Fault Refusal :=
  .next (returnFromSubroutine st)

/-- SWI (R407). -/
def execSwi (st : State) : Host.Outcome State Fault Refusal :=
  .next (st.takeException .swi)

/-- SWI2 (R408). -/
def execSwi2 (st : State) : Host.Outcome State Fault Refusal :=
  .next (st.takeException .swi2)

/-- SWI3 (R409). -/
def execSwi3 (st : State) : Host.Outcome State Fault Refusal :=
  .next (st.takeException .swi3)

/-- RTI (R410). -/
def execRti (st : State) : Host.Outcome State Fault Refusal :=
  .next st.returnFromInterrupt

/-- CWAI (R403). -/
def execCwai (imm : Byte) (st : State) : Host.Outcome State Fault Refusal :=
  .next (andCCAndWait imm st)

/-- SYNC (R411). -/
def execSync (st : State) : Host.Outcome State Fault Refusal :=
  .next (synchronize st)

end Sys2Proof.Machine
end

