-- ==== Sys2Proof/Machine/Dispatch.lean ====
section
/-! DEFINITION. The dispatch of every constructor of `Instr` to its meaning. PC is the address of the next
instruction when a meaning runs (spec 00_scope.md R15). -/

namespace Sys2Proof.Machine

def exec (i : Instr) (s : State) : Host.Outcome State Fault Refusal :=
  match i with
  | .negDir lo => Sys2Proof.Machine.execNegDir lo s
  | .comDir lo => Sys2Proof.Machine.execComDir lo s
  | .lsrDir lo => Sys2Proof.Machine.execLsrDir lo s
  | .rorDir lo => Sys2Proof.Machine.execRorDir lo s
  | .asrDir lo => Sys2Proof.Machine.execAsrDir lo s
  | .aslDir lo => Sys2Proof.Machine.execAslDir lo s
  | .rolDir lo => Sys2Proof.Machine.execRolDir lo s
  | .decDir lo => Sys2Proof.Machine.execDecDir lo s
  | .incDir lo => Sys2Proof.Machine.execIncDir lo s
  | .tstDir lo => Sys2Proof.Machine.execTstDir lo s
  | .jmpDir lo => Sys2Proof.Machine.execJmpDir lo s
  | .clrDir lo => Sys2Proof.Machine.execClrDir lo s
  | .lbra off => Sys2Proof.Machine.execLbra off s
  | .lbsr off => Sys2Proof.Machine.execLbsr off s
  | .orcc imm => Sys2Proof.Machine.execOrcc imm s
  | .andcc imm => Sys2Proof.Machine.execAndcc imm s
  | .exg src dst => Sys2Proof.Machine.execExg src dst s
  | .tfr src dst => Sys2Proof.Machine.execTfr src dst s
  | .bra off => Sys2Proof.Machine.execBra off s
  | .brn off => Sys2Proof.Machine.execBrn off s
  | .bhi off => Sys2Proof.Machine.execBhi off s
  | .bls off => Sys2Proof.Machine.execBls off s
  | .bcc off => Sys2Proof.Machine.execBcc off s
  | .bcs off => Sys2Proof.Machine.execBcs off s
  | .bne off => Sys2Proof.Machine.execBne off s
  | .beq off => Sys2Proof.Machine.execBeq off s
  | .bvc off => Sys2Proof.Machine.execBvc off s
  | .bvs off => Sys2Proof.Machine.execBvs off s
  | .bpl off => Sys2Proof.Machine.execBpl off s
  | .bmi off => Sys2Proof.Machine.execBmi off s
  | .bge off => Sys2Proof.Machine.execBge off s
  | .blt off => Sys2Proof.Machine.execBlt off s
  | .bgt off => Sys2Proof.Machine.execBgt off s
  | .ble off => Sys2Proof.Machine.execBle off s
  | .leax m => Sys2Proof.Machine.execLeax m s
  | .leay m => Sys2Proof.Machine.execLeay m s
  | .leas m => Sys2Proof.Machine.execLeas m s
  | .leau m => Sys2Proof.Machine.execLeau m s
  | .pshs pb => Sys2Proof.Machine.execPshs pb s
  | .puls pb => Sys2Proof.Machine.execPuls pb s
  | .pshu pb => Sys2Proof.Machine.execPshu pb s
  | .pulu pb => Sys2Proof.Machine.execPulu pb s
  | .cwai imm => Sys2Proof.Machine.execCwai imm s
  | .negIdx m => Sys2Proof.Machine.execNegIdx m s
  | .comIdx m => Sys2Proof.Machine.execComIdx m s
  | .lsrIdx m => Sys2Proof.Machine.execLsrIdx m s
  | .rorIdx m => Sys2Proof.Machine.execRorIdx m s
  | .asrIdx m => Sys2Proof.Machine.execAsrIdx m s
  | .aslIdx m => Sys2Proof.Machine.execAslIdx m s
  | .rolIdx m => Sys2Proof.Machine.execRolIdx m s
  | .decIdx m => Sys2Proof.Machine.execDecIdx m s
  | .incIdx m => Sys2Proof.Machine.execIncIdx m s
  | .tstIdx m => Sys2Proof.Machine.execTstIdx m s
  | .jmpIdx m => Sys2Proof.Machine.execJmpIdx m s
  | .clrIdx m => Sys2Proof.Machine.execClrIdx m s
  | .negExt addr => Sys2Proof.Machine.execNegExt addr s
  | .comExt addr => Sys2Proof.Machine.execComExt addr s
  | .lsrExt addr => Sys2Proof.Machine.execLsrExt addr s
  | .rorExt addr => Sys2Proof.Machine.execRorExt addr s
  | .asrExt addr => Sys2Proof.Machine.execAsrExt addr s
  | .aslExt addr => Sys2Proof.Machine.execAslExt addr s
  | .rolExt addr => Sys2Proof.Machine.execRolExt addr s
  | .decExt addr => Sys2Proof.Machine.execDecExt addr s
  | .incExt addr => Sys2Proof.Machine.execIncExt addr s
  | .tstExt addr => Sys2Proof.Machine.execTstExt addr s
  | .jmpExt addr => Sys2Proof.Machine.execJmpExt addr s
  | .clrExt addr => Sys2Proof.Machine.execClrExt addr s
  | .subaImm imm => Sys2Proof.Machine.execSubaImm imm s
  | .cmpaImm imm => Sys2Proof.Machine.execCmpaImm imm s
  | .sbcaImm imm => Sys2Proof.Machine.execSbcaImm imm s
  | .subdImm imm => Sys2Proof.Machine.execSubdImm imm s
  | .andaImm imm => Sys2Proof.Machine.execAndaImm imm s
  | .bitaImm imm => Sys2Proof.Machine.execBitaImm imm s
  | .ldaImm imm => Sys2Proof.Machine.execLdaImm imm s
  | .eoraImm imm => Sys2Proof.Machine.execEoraImm imm s
  | .adcaImm imm => Sys2Proof.Machine.execAdcaImm imm s
  | .oraImm imm => Sys2Proof.Machine.execOraImm imm s
  | .addaImm imm => Sys2Proof.Machine.execAddaImm imm s
  | .cmpxImm imm => Sys2Proof.Machine.execCmpxImm imm s
  | .bsr off => Sys2Proof.Machine.execBsr off s
  | .ldxImm imm => Sys2Proof.Machine.execLdxImm imm s
  | .subaDir lo => Sys2Proof.Machine.execSubaDir lo s
  | .cmpaDir lo => Sys2Proof.Machine.execCmpaDir lo s
  | .sbcaDir lo => Sys2Proof.Machine.execSbcaDir lo s
  | .subdDir lo => Sys2Proof.Machine.execSubdDir lo s
  | .andaDir lo => Sys2Proof.Machine.execAndaDir lo s
  | .bitaDir lo => Sys2Proof.Machine.execBitaDir lo s
  | .ldaDir lo => Sys2Proof.Machine.execLdaDir lo s
  | .staDir lo => Sys2Proof.Machine.execStaDir lo s
  | .eoraDir lo => Sys2Proof.Machine.execEoraDir lo s
  | .adcaDir lo => Sys2Proof.Machine.execAdcaDir lo s
  | .oraDir lo => Sys2Proof.Machine.execOraDir lo s
  | .addaDir lo => Sys2Proof.Machine.execAddaDir lo s
  | .cmpxDir lo => Sys2Proof.Machine.execCmpxDir lo s
  | .jsrDir lo => Sys2Proof.Machine.execJsrDir lo s
  | .ldxDir lo => Sys2Proof.Machine.execLdxDir lo s
  | .stxDir lo => Sys2Proof.Machine.execStxDir lo s
  | .subaIdx m => Sys2Proof.Machine.execSubaIdx m s
  | .cmpaIdx m => Sys2Proof.Machine.execCmpaIdx m s
  | .sbcaIdx m => Sys2Proof.Machine.execSbcaIdx m s
  | .subdIdx m => Sys2Proof.Machine.execSubdIdx m s
  | .andaIdx m => Sys2Proof.Machine.execAndaIdx m s
  | .bitaIdx m => Sys2Proof.Machine.execBitaIdx m s
  | .ldaIdx m => Sys2Proof.Machine.execLdaIdx m s
  | .staIdx m => Sys2Proof.Machine.execStaIdx m s
  | .eoraIdx m => Sys2Proof.Machine.execEoraIdx m s
  | .adcaIdx m => Sys2Proof.Machine.execAdcaIdx m s
  | .oraIdx m => Sys2Proof.Machine.execOraIdx m s
  | .addaIdx m => Sys2Proof.Machine.execAddaIdx m s
  | .cmpxIdx m => Sys2Proof.Machine.execCmpxIdx m s
  | .jsrIdx m => Sys2Proof.Machine.execJsrIdx m s
  | .ldxIdx m => Sys2Proof.Machine.execLdxIdx m s
  | .stxIdx m => Sys2Proof.Machine.execStxIdx m s
  | .subaExt addr => Sys2Proof.Machine.execSubaExt addr s
  | .cmpaExt addr => Sys2Proof.Machine.execCmpaExt addr s
  | .sbcaExt addr => Sys2Proof.Machine.execSbcaExt addr s
  | .subdExt addr => Sys2Proof.Machine.execSubdExt addr s
  | .andaExt addr => Sys2Proof.Machine.execAndaExt addr s
  | .bitaExt addr => Sys2Proof.Machine.execBitaExt addr s
  | .ldaExt addr => Sys2Proof.Machine.execLdaExt addr s
  | .staExt addr => Sys2Proof.Machine.execStaExt addr s
  | .eoraExt addr => Sys2Proof.Machine.execEoraExt addr s
  | .adcaExt addr => Sys2Proof.Machine.execAdcaExt addr s
  | .oraExt addr => Sys2Proof.Machine.execOraExt addr s
  | .addaExt addr => Sys2Proof.Machine.execAddaExt addr s
  | .cmpxExt addr => Sys2Proof.Machine.execCmpxExt addr s
  | .jsrExt addr => Sys2Proof.Machine.execJsrExt addr s
  | .ldxExt addr => Sys2Proof.Machine.execLdxExt addr s
  | .stxExt addr => Sys2Proof.Machine.execStxExt addr s
  | .subbImm imm => Sys2Proof.Machine.execSubbImm imm s
  | .cmpbImm imm => Sys2Proof.Machine.execCmpbImm imm s
  | .sbcbImm imm => Sys2Proof.Machine.execSbcbImm imm s
  | .adddImm imm => Sys2Proof.Machine.execAdddImm imm s
  | .andbImm imm => Sys2Proof.Machine.execAndbImm imm s
  | .bitbImm imm => Sys2Proof.Machine.execBitbImm imm s
  | .ldbImm imm => Sys2Proof.Machine.execLdbImm imm s
  | .eorbImm imm => Sys2Proof.Machine.execEorbImm imm s
  | .adcbImm imm => Sys2Proof.Machine.execAdcbImm imm s
  | .orbImm imm => Sys2Proof.Machine.execOrbImm imm s
  | .addbImm imm => Sys2Proof.Machine.execAddbImm imm s
  | .lddImm imm => Sys2Proof.Machine.execLddImm imm s
  | .lduImm imm => Sys2Proof.Machine.execLduImm imm s
  | .subbDir lo => Sys2Proof.Machine.execSubbDir lo s
  | .cmpbDir lo => Sys2Proof.Machine.execCmpbDir lo s
  | .sbcbDir lo => Sys2Proof.Machine.execSbcbDir lo s
  | .adddDir lo => Sys2Proof.Machine.execAdddDir lo s
  | .andbDir lo => Sys2Proof.Machine.execAndbDir lo s
  | .bitbDir lo => Sys2Proof.Machine.execBitbDir lo s
  | .ldbDir lo => Sys2Proof.Machine.execLdbDir lo s
  | .stbDir lo => Sys2Proof.Machine.execStbDir lo s
  | .eorbDir lo => Sys2Proof.Machine.execEorbDir lo s
  | .adcbDir lo => Sys2Proof.Machine.execAdcbDir lo s
  | .orbDir lo => Sys2Proof.Machine.execOrbDir lo s
  | .addbDir lo => Sys2Proof.Machine.execAddbDir lo s
  | .lddDir lo => Sys2Proof.Machine.execLddDir lo s
  | .stdDir lo => Sys2Proof.Machine.execStdDir lo s
  | .lduDir lo => Sys2Proof.Machine.execLduDir lo s
  | .stuDir lo => Sys2Proof.Machine.execStuDir lo s
  | .subbIdx m => Sys2Proof.Machine.execSubbIdx m s
  | .cmpbIdx m => Sys2Proof.Machine.execCmpbIdx m s
  | .sbcbIdx m => Sys2Proof.Machine.execSbcbIdx m s
  | .adddIdx m => Sys2Proof.Machine.execAdddIdx m s
  | .andbIdx m => Sys2Proof.Machine.execAndbIdx m s
  | .bitbIdx m => Sys2Proof.Machine.execBitbIdx m s
  | .ldbIdx m => Sys2Proof.Machine.execLdbIdx m s
  | .stbIdx m => Sys2Proof.Machine.execStbIdx m s
  | .eorbIdx m => Sys2Proof.Machine.execEorbIdx m s
  | .adcbIdx m => Sys2Proof.Machine.execAdcbIdx m s
  | .orbIdx m => Sys2Proof.Machine.execOrbIdx m s
  | .addbIdx m => Sys2Proof.Machine.execAddbIdx m s
  | .lddIdx m => Sys2Proof.Machine.execLddIdx m s
  | .stdIdx m => Sys2Proof.Machine.execStdIdx m s
  | .lduIdx m => Sys2Proof.Machine.execLduIdx m s
  | .stuIdx m => Sys2Proof.Machine.execStuIdx m s
  | .subbExt addr => Sys2Proof.Machine.execSubbExt addr s
  | .cmpbExt addr => Sys2Proof.Machine.execCmpbExt addr s
  | .sbcbExt addr => Sys2Proof.Machine.execSbcbExt addr s
  | .adddExt addr => Sys2Proof.Machine.execAdddExt addr s
  | .andbExt addr => Sys2Proof.Machine.execAndbExt addr s
  | .bitbExt addr => Sys2Proof.Machine.execBitbExt addr s
  | .ldbExt addr => Sys2Proof.Machine.execLdbExt addr s
  | .stbExt addr => Sys2Proof.Machine.execStbExt addr s
  | .eorbExt addr => Sys2Proof.Machine.execEorbExt addr s
  | .adcbExt addr => Sys2Proof.Machine.execAdcbExt addr s
  | .orbExt addr => Sys2Proof.Machine.execOrbExt addr s
  | .addbExt addr => Sys2Proof.Machine.execAddbExt addr s
  | .lddExt addr => Sys2Proof.Machine.execLddExt addr s
  | .stdExt addr => Sys2Proof.Machine.execStdExt addr s
  | .lduExt addr => Sys2Proof.Machine.execLduExt addr s
  | .stuExt addr => Sys2Proof.Machine.execStuExt addr s
  | .lbrn off => Sys2Proof.Machine.execLbrn off s
  | .lbhi off => Sys2Proof.Machine.execLbhi off s
  | .lbls off => Sys2Proof.Machine.execLbls off s
  | .lbcc off => Sys2Proof.Machine.execLbcc off s
  | .lbcs off => Sys2Proof.Machine.execLbcs off s
  | .lbne off => Sys2Proof.Machine.execLbne off s
  | .lbeq off => Sys2Proof.Machine.execLbeq off s
  | .lbvc off => Sys2Proof.Machine.execLbvc off s
  | .lbvs off => Sys2Proof.Machine.execLbvs off s
  | .lbpl off => Sys2Proof.Machine.execLbpl off s
  | .lbmi off => Sys2Proof.Machine.execLbmi off s
  | .lbge off => Sys2Proof.Machine.execLbge off s
  | .lblt off => Sys2Proof.Machine.execLblt off s
  | .lbgt off => Sys2Proof.Machine.execLbgt off s
  | .lble off => Sys2Proof.Machine.execLble off s
  | .cmpdImm imm => Sys2Proof.Machine.execCmpdImm imm s
  | .cmpyImm imm => Sys2Proof.Machine.execCmpyImm imm s
  | .ldyImm imm => Sys2Proof.Machine.execLdyImm imm s
  | .cmpdDir lo => Sys2Proof.Machine.execCmpdDir lo s
  | .cmpyDir lo => Sys2Proof.Machine.execCmpyDir lo s
  | .ldyDir lo => Sys2Proof.Machine.execLdyDir lo s
  | .styDir lo => Sys2Proof.Machine.execStyDir lo s
  | .cmpdIdx m => Sys2Proof.Machine.execCmpdIdx m s
  | .cmpyIdx m => Sys2Proof.Machine.execCmpyIdx m s
  | .ldyIdx m => Sys2Proof.Machine.execLdyIdx m s
  | .styIdx m => Sys2Proof.Machine.execStyIdx m s
  | .cmpdExt addr => Sys2Proof.Machine.execCmpdExt addr s
  | .cmpyExt addr => Sys2Proof.Machine.execCmpyExt addr s
  | .ldyExt addr => Sys2Proof.Machine.execLdyExt addr s
  | .styExt addr => Sys2Proof.Machine.execStyExt addr s
  | .ldsImm imm => Sys2Proof.Machine.execLdsImm imm s
  | .ldsDir lo => Sys2Proof.Machine.execLdsDir lo s
  | .stsDir lo => Sys2Proof.Machine.execStsDir lo s
  | .ldsIdx m => Sys2Proof.Machine.execLdsIdx m s
  | .stsIdx m => Sys2Proof.Machine.execStsIdx m s
  | .ldsExt addr => Sys2Proof.Machine.execLdsExt addr s
  | .stsExt addr => Sys2Proof.Machine.execStsExt addr s
  | .cmpuImm imm => Sys2Proof.Machine.execCmpuImm imm s
  | .cmpsImm imm => Sys2Proof.Machine.execCmpsImm imm s
  | .cmpuDir lo => Sys2Proof.Machine.execCmpuDir lo s
  | .cmpsDir lo => Sys2Proof.Machine.execCmpsDir lo s
  | .cmpuIdx m => Sys2Proof.Machine.execCmpuIdx m s
  | .cmpsIdx m => Sys2Proof.Machine.execCmpsIdx m s
  | .cmpuExt addr => Sys2Proof.Machine.execCmpuExt addr s
  | .cmpsExt addr => Sys2Proof.Machine.execCmpsExt addr s
  | .nop => Sys2Proof.Machine.execNop s
  | .sync => Sys2Proof.Machine.execSync s
  | .daa => Sys2Proof.Machine.execDaa s
  | .sex => Sys2Proof.Machine.execSex s
  | .rts => Sys2Proof.Machine.execRts s
  | .abx => Sys2Proof.Machine.execAbx s
  | .rti => Sys2Proof.Machine.execRti s
  | .mul => Sys2Proof.Machine.execMul s
  | .swi => Sys2Proof.Machine.execSwi s
  | .nega => Sys2Proof.Machine.execNega s
  | .coma => Sys2Proof.Machine.execComa s
  | .lsra => Sys2Proof.Machine.execLsra s
  | .rora => Sys2Proof.Machine.execRora s
  | .asra => Sys2Proof.Machine.execAsra s
  | .asla => Sys2Proof.Machine.execAsla s
  | .rola => Sys2Proof.Machine.execRola s
  | .deca => Sys2Proof.Machine.execDeca s
  | .inca => Sys2Proof.Machine.execInca s
  | .tsta => Sys2Proof.Machine.execTsta s
  | .clra => Sys2Proof.Machine.execClra s
  | .negb => Sys2Proof.Machine.execNegb s
  | .comb => Sys2Proof.Machine.execComb s
  | .lsrb => Sys2Proof.Machine.execLsrb s
  | .rorb => Sys2Proof.Machine.execRorb s
  | .asrb => Sys2Proof.Machine.execAsrb s
  | .aslb => Sys2Proof.Machine.execAslb s
  | .rolb => Sys2Proof.Machine.execRolb s
  | .decb => Sys2Proof.Machine.execDecb s
  | .incb => Sys2Proof.Machine.execIncb s
  | .tstb => Sys2Proof.Machine.execTstb s
  | .clrb => Sys2Proof.Machine.execClrb s
  | .swi2 => Sys2Proof.Machine.execSwi2 s
  | .swi3 => Sys2Proof.Machine.execSwi3 s

end Sys2Proof.Machine
end

