-- ==== Sys2Proof/WellFormed.lean ====
section
/-! DEFINITION. Which terms of `Instr` are instructions of the MC6809E. Every operand is typed so that only
defined values can be written (an indexed operand has no undefined postbyte, R116), but for the two registers
of TFR and EXG, which must be of like size (R120). -/

namespace Sys2Proof

/-- Is the register 16 bits wide (R119)? -/
def RegCode.is16 : RegCode → Bool
  | .d | .x | .y | .u | .s | .pc => true
  | .a | .b | .cc | .dp => false

/-- "any register may be transferred to or exchanged with another of like-size" (R120). -/
def validPair (src dst : RegCode) : Bool := src.is16 == dst.is16

/-- A well-formed instruction: a TFR or EXG names two registers of one size (R120); of every other instruction
every term is well formed. -/
def Instr.wf : Instr → Bool
  | .tfr src dst => validPair src dst
  | .exg src dst => validPair src dst
  | _ => true

end Sys2Proof
end

