-- ==== Sys2Proof/Decode.lean ====
section
/-! DEFINITION. The decoder and the encoder of the MC6809E: the opcode maps of 30_encoding.md (R122 to R124) as
tables of rows, prebytes (R91, R92), operand formats (R90), indexed postbytes (R100 to R116) and register
postbytes (R119 to R121). Bytes are in fetch order: the head of a list is the byte at the lowest address. -/

namespace Sys2Proof

open Sys2Proof.Machine

/-- Why a sequence of bytes is no instruction. -/
inductive DecodeError where
  /-- The bytes end before the instruction does (no opcode, or an operand byte missing). -/
  | truncated
  /-- An opcode that its page does not define (R125, R126). -/
  | unusedOpcode
  /-- An indexed postbyte that R100 does not define (R116). -/
  | undefinedPostbyte
  /-- A TFR or EXG postbyte with an undefined code, or two registers of unlike size (R120). -/
  | invalidRegisterPair
deriving DecidableEq, Repr

/-- The three opcode maps (R122, R123, R124). -/
inductive Page where
  | page1 | page2 | page3
deriving DecidableEq, Repr

/-- One cell of an opcode map: the operand format (R90) and the instruction that the operands complete. -/
inductive Row where
  | inh (i : Instr)
  | imm8 (mk : Byte → Instr)
  | imm16 (mk : Word → Instr)
  | dir (mk : Byte → Instr)
  | ext (mk : Word → Instr)
  | idx (mk : Idx → Instr)
  | rel8 (mk : Byte → Instr)
  | rel16 (mk : Word → Instr)
  | regpb (mk : RegCode → RegCode → Instr)
  | stkpb (mk : Byte → Instr)

/-- Page 1, opcodes $00 to $0F (R122). -/
def page1Row0 : List (Byte × Row) :=
  [(0x00#8, .dir .negDir), (0x03#8, .dir .comDir), (0x04#8, .dir .lsrDir),
   (0x06#8, .dir .rorDir), (0x07#8, .dir .asrDir), (0x08#8, .dir .aslDir),
   (0x09#8, .dir .rolDir), (0x0A#8, .dir .decDir), (0x0C#8, .dir .incDir),
   (0x0D#8, .dir .tstDir), (0x0E#8, .dir .jmpDir), (0x0F#8, .dir .clrDir)]

/-- Page 1, opcodes $10 to $1F (R122). -/
def page1Row1 : List (Byte × Row) :=
  [(0x12#8, .inh .nop), (0x13#8, .inh .sync), (0x16#8, .rel16 .lbra),
   (0x17#8, .rel16 .lbsr), (0x19#8, .inh .daa), (0x1A#8, .imm8 .orcc),
   (0x1C#8, .imm8 .andcc), (0x1D#8, .inh .sex), (0x1E#8, .regpb .exg),
   (0x1F#8, .regpb .tfr)]

/-- Page 1, opcodes $20 to $2F (R122). -/
def page1Row2 : List (Byte × Row) :=
  [(0x20#8, .rel8 .bra), (0x21#8, .rel8 .brn), (0x22#8, .rel8 .bhi),
   (0x23#8, .rel8 .bls), (0x24#8, .rel8 .bcc), (0x25#8, .rel8 .bcs),
   (0x26#8, .rel8 .bne), (0x27#8, .rel8 .beq), (0x28#8, .rel8 .bvc),
   (0x29#8, .rel8 .bvs), (0x2A#8, .rel8 .bpl), (0x2B#8, .rel8 .bmi),
   (0x2C#8, .rel8 .bge), (0x2D#8, .rel8 .blt), (0x2E#8, .rel8 .bgt),
   (0x2F#8, .rel8 .ble)]

/-- Page 1, opcodes $30 to $3F (R122). -/
def page1Row3 : List (Byte × Row) :=
  [(0x30#8, .idx .leax), (0x31#8, .idx .leay), (0x32#8, .idx .leas),
   (0x33#8, .idx .leau), (0x34#8, .stkpb .pshs), (0x35#8, .stkpb .puls),
   (0x36#8, .stkpb .pshu), (0x37#8, .stkpb .pulu), (0x39#8, .inh .rts),
   (0x3A#8, .inh .abx), (0x3B#8, .inh .rti), (0x3C#8, .imm8 .cwai),
   (0x3D#8, .inh .mul), (0x3F#8, .inh .swi)]

/-- Page 1, opcodes $40 to $4F (R122). -/
def page1Row4 : List (Byte × Row) :=
  [(0x40#8, .inh .nega), (0x43#8, .inh .coma), (0x44#8, .inh .lsra),
   (0x46#8, .inh .rora), (0x47#8, .inh .asra), (0x48#8, .inh .asla),
   (0x49#8, .inh .rola), (0x4A#8, .inh .deca), (0x4C#8, .inh .inca),
   (0x4D#8, .inh .tsta), (0x4F#8, .inh .clra)]

/-- Page 1, opcodes $50 to $5F (R122). -/
def page1Row5 : List (Byte × Row) :=
  [(0x50#8, .inh .negb), (0x53#8, .inh .comb), (0x54#8, .inh .lsrb),
   (0x56#8, .inh .rorb), (0x57#8, .inh .asrb), (0x58#8, .inh .aslb),
   (0x59#8, .inh .rolb), (0x5A#8, .inh .decb), (0x5C#8, .inh .incb),
   (0x5D#8, .inh .tstb), (0x5F#8, .inh .clrb)]

/-- Page 1, opcodes $60 to $6F (R122). -/
def page1Row6 : List (Byte × Row) :=
  [(0x60#8, .idx .negIdx), (0x63#8, .idx .comIdx), (0x64#8, .idx .lsrIdx),
   (0x66#8, .idx .rorIdx), (0x67#8, .idx .asrIdx), (0x68#8, .idx .aslIdx),
   (0x69#8, .idx .rolIdx), (0x6A#8, .idx .decIdx), (0x6C#8, .idx .incIdx),
   (0x6D#8, .idx .tstIdx), (0x6E#8, .idx .jmpIdx), (0x6F#8, .idx .clrIdx)]

/-- Page 1, opcodes $70 to $7F (R122). -/
def page1Row7 : List (Byte × Row) :=
  [(0x70#8, .ext .negExt), (0x73#8, .ext .comExt), (0x74#8, .ext .lsrExt),
   (0x76#8, .ext .rorExt), (0x77#8, .ext .asrExt), (0x78#8, .ext .aslExt),
   (0x79#8, .ext .rolExt), (0x7A#8, .ext .decExt), (0x7C#8, .ext .incExt),
   (0x7D#8, .ext .tstExt), (0x7E#8, .ext .jmpExt), (0x7F#8, .ext .clrExt)]

/-- Page 1, opcodes $80 to $8F (R122). -/
def page1Row8 : List (Byte × Row) :=
  [(0x80#8, .imm8 .subaImm), (0x81#8, .imm8 .cmpaImm), (0x82#8, .imm8 .sbcaImm),
   (0x83#8, .imm16 .subdImm), (0x84#8, .imm8 .andaImm), (0x85#8, .imm8 .bitaImm),
   (0x86#8, .imm8 .ldaImm), (0x88#8, .imm8 .eoraImm), (0x89#8, .imm8 .adcaImm),
   (0x8A#8, .imm8 .oraImm), (0x8B#8, .imm8 .addaImm), (0x8C#8, .imm16 .cmpxImm),
   (0x8D#8, .rel8 .bsr), (0x8E#8, .imm16 .ldxImm)]

/-- Page 1, opcodes $90 to $9F (R122). -/
def page1Row9 : List (Byte × Row) :=
  [(0x90#8, .dir .subaDir), (0x91#8, .dir .cmpaDir), (0x92#8, .dir .sbcaDir),
   (0x93#8, .dir .subdDir), (0x94#8, .dir .andaDir), (0x95#8, .dir .bitaDir),
   (0x96#8, .dir .ldaDir), (0x97#8, .dir .staDir), (0x98#8, .dir .eoraDir),
   (0x99#8, .dir .adcaDir), (0x9A#8, .dir .oraDir), (0x9B#8, .dir .addaDir),
   (0x9C#8, .dir .cmpxDir), (0x9D#8, .dir .jsrDir), (0x9E#8, .dir .ldxDir),
   (0x9F#8, .dir .stxDir)]

/-- Page 1, opcodes $A0 to $AF (R122). -/
def page1RowA : List (Byte × Row) :=
  [(0xA0#8, .idx .subaIdx), (0xA1#8, .idx .cmpaIdx), (0xA2#8, .idx .sbcaIdx),
   (0xA3#8, .idx .subdIdx), (0xA4#8, .idx .andaIdx), (0xA5#8, .idx .bitaIdx),
   (0xA6#8, .idx .ldaIdx), (0xA7#8, .idx .staIdx), (0xA8#8, .idx .eoraIdx),
   (0xA9#8, .idx .adcaIdx), (0xAA#8, .idx .oraIdx), (0xAB#8, .idx .addaIdx),
   (0xAC#8, .idx .cmpxIdx), (0xAD#8, .idx .jsrIdx), (0xAE#8, .idx .ldxIdx),
   (0xAF#8, .idx .stxIdx)]

/-- Page 1, opcodes $B0 to $BF (R122). -/
def page1RowB : List (Byte × Row) :=
  [(0xB0#8, .ext .subaExt), (0xB1#8, .ext .cmpaExt), (0xB2#8, .ext .sbcaExt),
   (0xB3#8, .ext .subdExt), (0xB4#8, .ext .andaExt), (0xB5#8, .ext .bitaExt),
   (0xB6#8, .ext .ldaExt), (0xB7#8, .ext .staExt), (0xB8#8, .ext .eoraExt),
   (0xB9#8, .ext .adcaExt), (0xBA#8, .ext .oraExt), (0xBB#8, .ext .addaExt),
   (0xBC#8, .ext .cmpxExt), (0xBD#8, .ext .jsrExt), (0xBE#8, .ext .ldxExt),
   (0xBF#8, .ext .stxExt)]

/-- Page 1, opcodes $C0 to $CF (R122). -/
def page1RowC : List (Byte × Row) :=
  [(0xC0#8, .imm8 .subbImm), (0xC1#8, .imm8 .cmpbImm), (0xC2#8, .imm8 .sbcbImm),
   (0xC3#8, .imm16 .adddImm), (0xC4#8, .imm8 .andbImm), (0xC5#8, .imm8 .bitbImm),
   (0xC6#8, .imm8 .ldbImm), (0xC8#8, .imm8 .eorbImm), (0xC9#8, .imm8 .adcbImm),
   (0xCA#8, .imm8 .orbImm), (0xCB#8, .imm8 .addbImm), (0xCC#8, .imm16 .lddImm),
   (0xCE#8, .imm16 .lduImm)]

/-- Page 1, opcodes $D0 to $DF (R122). -/
def page1RowD : List (Byte × Row) :=
  [(0xD0#8, .dir .subbDir), (0xD1#8, .dir .cmpbDir), (0xD2#8, .dir .sbcbDir),
   (0xD3#8, .dir .adddDir), (0xD4#8, .dir .andbDir), (0xD5#8, .dir .bitbDir),
   (0xD6#8, .dir .ldbDir), (0xD7#8, .dir .stbDir), (0xD8#8, .dir .eorbDir),
   (0xD9#8, .dir .adcbDir), (0xDA#8, .dir .orbDir), (0xDB#8, .dir .addbDir),
   (0xDC#8, .dir .lddDir), (0xDD#8, .dir .stdDir), (0xDE#8, .dir .lduDir),
   (0xDF#8, .dir .stuDir)]

/-- Page 1, opcodes $E0 to $EF (R122). -/
def page1RowE : List (Byte × Row) :=
  [(0xE0#8, .idx .subbIdx), (0xE1#8, .idx .cmpbIdx), (0xE2#8, .idx .sbcbIdx),
   (0xE3#8, .idx .adddIdx), (0xE4#8, .idx .andbIdx), (0xE5#8, .idx .bitbIdx),
   (0xE6#8, .idx .ldbIdx), (0xE7#8, .idx .stbIdx), (0xE8#8, .idx .eorbIdx),
   (0xE9#8, .idx .adcbIdx), (0xEA#8, .idx .orbIdx), (0xEB#8, .idx .addbIdx),
   (0xEC#8, .idx .lddIdx), (0xED#8, .idx .stdIdx), (0xEE#8, .idx .lduIdx),
   (0xEF#8, .idx .stuIdx)]

/-- Page 1, opcodes $F0 to $FF (R122). -/
def page1RowF : List (Byte × Row) :=
  [(0xF0#8, .ext .subbExt), (0xF1#8, .ext .cmpbExt), (0xF2#8, .ext .sbcbExt),
   (0xF3#8, .ext .adddExt), (0xF4#8, .ext .andbExt), (0xF5#8, .ext .bitbExt),
   (0xF6#8, .ext .ldbExt), (0xF7#8, .ext .stbExt), (0xF8#8, .ext .eorbExt),
   (0xF9#8, .ext .adcbExt), (0xFA#8, .ext .orbExt), (0xFB#8, .ext .addbExt),
   (0xFC#8, .ext .lddExt), (0xFD#8, .ext .stdExt), (0xFE#8, .ext .lduExt),
   (0xFF#8, .ext .stuExt)]

/-- Page 2, opcodes $20 to $2F (R123). -/
def page2Row2 : List (Byte × Row) :=
  [(0x21#8, .rel16 .lbrn), (0x22#8, .rel16 .lbhi), (0x23#8, .rel16 .lbls),
   (0x24#8, .rel16 .lbcc), (0x25#8, .rel16 .lbcs), (0x26#8, .rel16 .lbne),
   (0x27#8, .rel16 .lbeq), (0x28#8, .rel16 .lbvc), (0x29#8, .rel16 .lbvs),
   (0x2A#8, .rel16 .lbpl), (0x2B#8, .rel16 .lbmi), (0x2C#8, .rel16 .lbge),
   (0x2D#8, .rel16 .lblt), (0x2E#8, .rel16 .lbgt), (0x2F#8, .rel16 .lble)]

/-- Page 2, opcodes $30 to $3F (R123). -/
def page2Row3 : List (Byte × Row) :=
  [(0x3F#8, .inh .swi2)]

/-- Page 2, opcodes $80 to $8F (R123). -/
def page2Row8 : List (Byte × Row) :=
  [(0x83#8, .imm16 .cmpdImm), (0x8C#8, .imm16 .cmpyImm), (0x8E#8, .imm16 .ldyImm)]

/-- Page 2, opcodes $90 to $9F (R123). -/
def page2Row9 : List (Byte × Row) :=
  [(0x93#8, .dir .cmpdDir), (0x9C#8, .dir .cmpyDir), (0x9E#8, .dir .ldyDir),
   (0x9F#8, .dir .styDir)]

/-- Page 2, opcodes $A0 to $AF (R123). -/
def page2RowA : List (Byte × Row) :=
  [(0xA3#8, .idx .cmpdIdx), (0xAC#8, .idx .cmpyIdx), (0xAE#8, .idx .ldyIdx),
   (0xAF#8, .idx .styIdx)]

/-- Page 2, opcodes $B0 to $BF (R123). -/
def page2RowB : List (Byte × Row) :=
  [(0xB3#8, .ext .cmpdExt), (0xBC#8, .ext .cmpyExt), (0xBE#8, .ext .ldyExt),
   (0xBF#8, .ext .styExt)]

/-- Page 2, opcodes $C0 to $CF (R123). -/
def page2RowC : List (Byte × Row) :=
  [(0xCE#8, .imm16 .ldsImm)]

/-- Page 2, opcodes $D0 to $DF (R123). -/
def page2RowD : List (Byte × Row) :=
  [(0xDE#8, .dir .ldsDir), (0xDF#8, .dir .stsDir)]

/-- Page 2, opcodes $E0 to $EF (R123). -/
def page2RowE : List (Byte × Row) :=
  [(0xEE#8, .idx .ldsIdx), (0xEF#8, .idx .stsIdx)]

/-- Page 2, opcodes $F0 to $FF (R123). -/
def page2RowF : List (Byte × Row) :=
  [(0xFE#8, .ext .ldsExt), (0xFF#8, .ext .stsExt)]

/-- Page 3, opcodes $30 to $3F (R124). -/
def page3Row3 : List (Byte × Row) :=
  [(0x3F#8, .inh .swi3)]

/-- Page 3, opcodes $80 to $8F (R124). -/
def page3Row8 : List (Byte × Row) :=
  [(0x83#8, .imm16 .cmpuImm), (0x8C#8, .imm16 .cmpsImm)]

/-- Page 3, opcodes $90 to $9F (R124). -/
def page3Row9 : List (Byte × Row) :=
  [(0x93#8, .dir .cmpuDir), (0x9C#8, .dir .cmpsDir)]

/-- Page 3, opcodes $A0 to $AF (R124). -/
def page3RowA : List (Byte × Row) :=
  [(0xA3#8, .idx .cmpuIdx), (0xAC#8, .idx .cmpsIdx)]

/-- Page 3, opcodes $B0 to $BF (R124). -/
def page3RowB : List (Byte × Row) :=
  [(0xB3#8, .ext .cmpuExt), (0xBC#8, .ext .cmpsExt)]

/-- The map of Page 1 (R122). -/
def page1Rows : List (Byte × Row) :=
  page1Row0 ++ page1Row1 ++ page1Row2 ++ page1Row3 ++ page1Row4 ++
  page1Row5 ++ page1Row6 ++ page1Row7 ++ page1Row8 ++ page1Row9 ++
  page1RowA ++ page1RowB ++ page1RowC ++ page1RowD ++ page1RowE ++
  page1RowF

/-- The map of Page 2 (R123). -/
def page2Rows : List (Byte × Row) :=
  page2Row2 ++ page2Row3 ++ page2Row8 ++ page2Row9 ++ page2RowA ++
  page2RowB ++ page2RowC ++ page2RowD ++ page2RowE ++ page2RowF

/-- The map of Page 3 (R124). -/
def page3Rows : List (Byte × Row) :=
  page3Row3 ++ page3Row8 ++ page3Row9 ++ page3RowA ++ page3RowB

/-- The map of a page. -/
def Page.rows : Page → List (Byte × Row)
  | .page1 => page1Rows
  | .page2 => page2Rows
  | .page3 => page3Rows

/-- The first row of an opcode in a list of rows. -/
def findRow : List (Byte × Row) → Byte → Option Row
  | [], _ => none
  | (op, row) :: rest, b => if op = b then some row else findRow rest b

/-- The row of an opcode on a page, `none` for an unused opcode (R125, R126). -/
def lookup (p : Page) (op : Byte) : Option Row := findRow p.rows op

/-- The pointer register of a postbyte's bits 6:5 (R100). -/
def ptrOfBits (rr : BitVec 2) : PtrReg :=
  match rr.toNat with
  | 0 => .x
  | 1 => .y
  | 2 => .u
  | _ => .s

/-- The indexed operand of a postbyte with bit 7 = 1, by its low five bits, the indirect bit and the mode field
(the table of R100), with the operand bytes that follow it. -/
def decodeIdxMode (pb : Byte) (rest : List Byte) : Except DecodeError (Idx × List Byte) :=
  let r := ptrOfBits (pb.extractLsb' 5 2)
  let ind := pb.getLsbD 4
  let byteForm (mk : Byte → Idx) : Except DecodeError (Idx × List Byte) :=
    match rest with
    | n :: tail => .ok (mk n, tail)
    | [] => .error .truncated
  let wordForm (mk : Word → Idx) : Except DecodeError (Idx × List Byte) :=
    match rest with
    | hi :: lo :: tail => .ok (mk (wordOf hi lo), tail)
    | _ => .error .truncated
  match (pb.extractLsb' 0 4).toNat with
  | 0x0 => if ind then .error .undefinedPostbyte else .ok (.inc1 r, rest)
  | 0x1 => .ok (.inc2 r ind, rest)
  | 0x2 => if ind then .error .undefinedPostbyte else .ok (.dec1 r, rest)
  | 0x3 => .ok (.dec2 r ind, rest)
  | 0x4 => .ok (.zero r ind, rest)
  | 0x5 => .ok (.accB r ind, rest)
  | 0x6 => .ok (.accA r ind, rest)
  | 0x8 => byteForm (.off8 r ind)
  | 0x9 => wordForm (.off16 r ind)
  | 0xB => .ok (.accD r ind, rest)
  | 0xC => byteForm (.pc8 ind)
  | 0xD => wordForm (.pc16 ind)
  | 0xF => if pb = 0x9F#8 then wordForm .extInd else .error .undefinedPostbyte
  | _ => .error .undefinedPostbyte

/-- The indexed operand of the bytes after an IDX opcode (R100): bit 7 = 0 is the 5-bit offset form (R101). -/
def decodeIdx : List Byte → Except DecodeError (Idx × List Byte)
  | [] => .error .truncated
  | pb :: rest =>
    if pb.getLsbD 7 then decodeIdxMode pb rest
    else .ok (.off5 (ptrOfBits (pb.extractLsb' 5 2)) (pb.extractLsb' 0 5), rest)

/-- The register of a TFR or EXG code (R119); six codes name none (R120). -/
def regOfCode (c : BitVec 4) : Option RegCode :=
  match c.toNat with
  | 0b0000 => some .d
  | 0b0001 => some .x
  | 0b0010 => some .y
  | 0b0011 => some .u
  | 0b0100 => some .s
  | 0b0101 => some .pc
  | 0b1000 => some .a
  | 0b1001 => some .b
  | 0b1010 => some .cc
  | 0b1011 => some .dp
  | _ => none

/-- The two registers of a TFR or EXG postbyte: source in bits 7:4, destination in bits 3:0 (R119), refused
unless both are defined and of like size (R120). -/
def decodePair (pb : Byte) : Except DecodeError (RegCode × RegCode) :=
  match regOfCode (pb.extractLsb' 4 4), regOfCode (pb.extractLsb' 0 4) with
  | some src, some dst => if validPair src dst then .ok (src, dst) else .error .invalidRegisterPair
  | _, _ => .error .invalidRegisterPair

/-- The instruction of a row and the bytes after the opcode, with the bytes left over (R90, R127). -/
def decodeRow (row : Row) (rest : List Byte) : Except DecodeError (Instr × List Byte) :=
  match row with
  | .inh i => .ok (i, rest)
  | .imm8 mk | .dir mk | .rel8 mk | .stkpb mk =>
    match rest with
    | n :: tail => .ok (mk n, tail)
    | [] => .error .truncated
  | .imm16 mk | .ext mk | .rel16 mk =>
    match rest with
    | hi :: lo :: tail => .ok (mk (wordOf hi lo), tail)
    | _ => .error .truncated
  | .idx mk =>
    match decodeIdx rest with
    | .ok (m, tail) => .ok (mk m, tail)
    | .error e => .error e
  | .regpb mk =>
    match rest with
    | pb :: tail =>
      match decodePair pb with
      | .ok (src, dst) => .ok (mk src dst, tail)
      | .error e => .error e
    | [] => .error .truncated

/-- The instruction of an opcode of a page and the bytes after it. -/
def decodeOpcode (p : Page) (op : Byte) (rest : List Byte) : Except DecodeError (Instr × List Byte) :=
  match lookup p op with
  | some row => decodeRow row rest
  | none => .error .unusedOpcode

/-- Is the byte one of the two prebytes `$10` and `$11` (R91)? -/
def isPrebyte (b : Byte) : Bool := b == 0x10#8 || b == 0x11#8

/-- After a first prebyte: further prebytes are skipped, and the first other byte is the opcode, looked up in
the page that the first prebyte selected (R92). -/
def decodeAfterPrebyte (p : Page) : List Byte → Except DecodeError (Instr × List Byte)
  | [] => .error .truncated
  | b :: rest => if isPrebyte b then decodeAfterPrebyte p rest else decodeOpcode p b rest

/-- The instruction at the head of a list of bytes, with the bytes after it (R91, R127). -/
def decode : List Byte → Except DecodeError (Instr × List Byte)
  | [] => .error .truncated
  | b :: rest =>
    if b = 0x10#8 then decodeAfterPrebyte .page2 rest
    else if b = 0x11#8 then decodeAfterPrebyte .page3 rest
    else decodeOpcode .page1 b rest

/-! ### The encoder -/

/-- Bits 6:5 of a postbyte for a pointer register (R100). -/
def PtrReg.bits : PtrReg → BitVec 2
  | .x => 0b00#2
  | .y => 0b01#2
  | .u => 0b10#2
  | .s => 0b11#2

/-- The postbyte `1RRimmmm` (R100). -/
def postbyte (rr : BitVec 2) (ind : Bool) (mode : BitVec 4) : Byte :=
  (1#1 ++ rr ++ BitVec.ofBool ind ++ mode : BitVec 8)

/-- A 16-bit operand as its two bytes, high byte first (R64). -/
def wordBytes (v : Word) : List Byte := [hiByte v, loByte v]

/-- The postbyte of an indexed operand and its operand bytes (R101 to R115). The don't-care bits of a
PC-relative postbyte (R112, R113) are written as 00. -/
def encodeIdx : Idx → List Byte
  | .off5 r n => [(0#1 ++ r.bits ++ n : BitVec 8)]
  | .inc1 r => [postbyte r.bits false 0x0#4]
  | .inc2 r ind => [postbyte r.bits ind 0x1#4]
  | .dec1 r => [postbyte r.bits false 0x2#4]
  | .dec2 r ind => [postbyte r.bits ind 0x3#4]
  | .zero r ind => [postbyte r.bits ind 0x4#4]
  | .accB r ind => [postbyte r.bits ind 0x5#4]
  | .accA r ind => [postbyte r.bits ind 0x6#4]
  | .off8 r ind n => [postbyte r.bits ind 0x8#4, n]
  | .off16 r ind n => postbyte r.bits ind 0x9#4 :: wordBytes n
  | .accD r ind => [postbyte r.bits ind 0xB#4]
  | .pc8 ind n => [postbyte 0b00#2 ind 0xC#4, n]
  | .pc16 ind n => postbyte 0b00#2 ind 0xD#4 :: wordBytes n
  | .extInd n => 0x9F#8 :: wordBytes n

/-- The code of a register in a TFR or EXG postbyte (R119). -/
def RegCode.code : RegCode → BitVec 4
  | .d => 0b0000#4
  | .x => 0b0001#4
  | .y => 0b0010#4
  | .u => 0b0011#4
  | .s => 0b0100#4
  | .pc => 0b0101#4
  | .a => 0b1000#4
  | .b => 0b1001#4
  | .cc => 0b1010#4
  | .dp => 0b1011#4

/-- The postbyte of TFR and EXG (R119). -/
def pairByte (src dst : RegCode) : Byte := src.code ++ dst.code

/-- The bytes of an instruction, with no redundant prebyte (R90 to R124). -/
def encode : Instr → List Byte
  | .negDir lo => [0x00#8, lo]
  | .comDir lo => [0x03#8, lo]
  | .lsrDir lo => [0x04#8, lo]
  | .rorDir lo => [0x06#8, lo]
  | .asrDir lo => [0x07#8, lo]
  | .aslDir lo => [0x08#8, lo]
  | .rolDir lo => [0x09#8, lo]
  | .decDir lo => [0x0A#8, lo]
  | .incDir lo => [0x0C#8, lo]
  | .tstDir lo => [0x0D#8, lo]
  | .jmpDir lo => [0x0E#8, lo]
  | .clrDir lo => [0x0F#8, lo]
  | .nop => [0x12#8]
  | .sync => [0x13#8]
  | .lbra off => 0x16#8 :: wordBytes off
  | .lbsr off => 0x17#8 :: wordBytes off
  | .daa => [0x19#8]
  | .orcc imm => [0x1A#8, imm]
  | .andcc imm => [0x1C#8, imm]
  | .sex => [0x1D#8]
  | .exg src dst => [0x1E#8, pairByte src dst]
  | .tfr src dst => [0x1F#8, pairByte src dst]
  | .bra off => [0x20#8, off]
  | .brn off => [0x21#8, off]
  | .bhi off => [0x22#8, off]
  | .bls off => [0x23#8, off]
  | .bcc off => [0x24#8, off]
  | .bcs off => [0x25#8, off]
  | .bne off => [0x26#8, off]
  | .beq off => [0x27#8, off]
  | .bvc off => [0x28#8, off]
  | .bvs off => [0x29#8, off]
  | .bpl off => [0x2A#8, off]
  | .bmi off => [0x2B#8, off]
  | .bge off => [0x2C#8, off]
  | .blt off => [0x2D#8, off]
  | .bgt off => [0x2E#8, off]
  | .ble off => [0x2F#8, off]
  | .leax m => 0x30#8 :: encodeIdx m
  | .leay m => 0x31#8 :: encodeIdx m
  | .leas m => 0x32#8 :: encodeIdx m
  | .leau m => 0x33#8 :: encodeIdx m
  | .pshs pb => [0x34#8, pb]
  | .puls pb => [0x35#8, pb]
  | .pshu pb => [0x36#8, pb]
  | .pulu pb => [0x37#8, pb]
  | .rts => [0x39#8]
  | .abx => [0x3A#8]
  | .rti => [0x3B#8]
  | .cwai imm => [0x3C#8, imm]
  | .mul => [0x3D#8]
  | .swi => [0x3F#8]
  | .nega => [0x40#8]
  | .coma => [0x43#8]
  | .lsra => [0x44#8]
  | .rora => [0x46#8]
  | .asra => [0x47#8]
  | .asla => [0x48#8]
  | .rola => [0x49#8]
  | .deca => [0x4A#8]
  | .inca => [0x4C#8]
  | .tsta => [0x4D#8]
  | .clra => [0x4F#8]
  | .negb => [0x50#8]
  | .comb => [0x53#8]
  | .lsrb => [0x54#8]
  | .rorb => [0x56#8]
  | .asrb => [0x57#8]
  | .aslb => [0x58#8]
  | .rolb => [0x59#8]
  | .decb => [0x5A#8]
  | .incb => [0x5C#8]
  | .tstb => [0x5D#8]
  | .clrb => [0x5F#8]
  | .negIdx m => 0x60#8 :: encodeIdx m
  | .comIdx m => 0x63#8 :: encodeIdx m
  | .lsrIdx m => 0x64#8 :: encodeIdx m
  | .rorIdx m => 0x66#8 :: encodeIdx m
  | .asrIdx m => 0x67#8 :: encodeIdx m
  | .aslIdx m => 0x68#8 :: encodeIdx m
  | .rolIdx m => 0x69#8 :: encodeIdx m
  | .decIdx m => 0x6A#8 :: encodeIdx m
  | .incIdx m => 0x6C#8 :: encodeIdx m
  | .tstIdx m => 0x6D#8 :: encodeIdx m
  | .jmpIdx m => 0x6E#8 :: encodeIdx m
  | .clrIdx m => 0x6F#8 :: encodeIdx m
  | .negExt addr => 0x70#8 :: wordBytes addr
  | .comExt addr => 0x73#8 :: wordBytes addr
  | .lsrExt addr => 0x74#8 :: wordBytes addr
  | .rorExt addr => 0x76#8 :: wordBytes addr
  | .asrExt addr => 0x77#8 :: wordBytes addr
  | .aslExt addr => 0x78#8 :: wordBytes addr
  | .rolExt addr => 0x79#8 :: wordBytes addr
  | .decExt addr => 0x7A#8 :: wordBytes addr
  | .incExt addr => 0x7C#8 :: wordBytes addr
  | .tstExt addr => 0x7D#8 :: wordBytes addr
  | .jmpExt addr => 0x7E#8 :: wordBytes addr
  | .clrExt addr => 0x7F#8 :: wordBytes addr
  | .subaImm imm => [0x80#8, imm]
  | .cmpaImm imm => [0x81#8, imm]
  | .sbcaImm imm => [0x82#8, imm]
  | .subdImm imm => 0x83#8 :: wordBytes imm
  | .andaImm imm => [0x84#8, imm]
  | .bitaImm imm => [0x85#8, imm]
  | .ldaImm imm => [0x86#8, imm]
  | .eoraImm imm => [0x88#8, imm]
  | .adcaImm imm => [0x89#8, imm]
  | .oraImm imm => [0x8A#8, imm]
  | .addaImm imm => [0x8B#8, imm]
  | .cmpxImm imm => 0x8C#8 :: wordBytes imm
  | .bsr off => [0x8D#8, off]
  | .ldxImm imm => 0x8E#8 :: wordBytes imm
  | .subaDir lo => [0x90#8, lo]
  | .cmpaDir lo => [0x91#8, lo]
  | .sbcaDir lo => [0x92#8, lo]
  | .subdDir lo => [0x93#8, lo]
  | .andaDir lo => [0x94#8, lo]
  | .bitaDir lo => [0x95#8, lo]
  | .ldaDir lo => [0x96#8, lo]
  | .staDir lo => [0x97#8, lo]
  | .eoraDir lo => [0x98#8, lo]
  | .adcaDir lo => [0x99#8, lo]
  | .oraDir lo => [0x9A#8, lo]
  | .addaDir lo => [0x9B#8, lo]
  | .cmpxDir lo => [0x9C#8, lo]
  | .jsrDir lo => [0x9D#8, lo]
  | .ldxDir lo => [0x9E#8, lo]
  | .stxDir lo => [0x9F#8, lo]
  | .subaIdx m => 0xA0#8 :: encodeIdx m
  | .cmpaIdx m => 0xA1#8 :: encodeIdx m
  | .sbcaIdx m => 0xA2#8 :: encodeIdx m
  | .subdIdx m => 0xA3#8 :: encodeIdx m
  | .andaIdx m => 0xA4#8 :: encodeIdx m
  | .bitaIdx m => 0xA5#8 :: encodeIdx m
  | .ldaIdx m => 0xA6#8 :: encodeIdx m
  | .staIdx m => 0xA7#8 :: encodeIdx m
  | .eoraIdx m => 0xA8#8 :: encodeIdx m
  | .adcaIdx m => 0xA9#8 :: encodeIdx m
  | .oraIdx m => 0xAA#8 :: encodeIdx m
  | .addaIdx m => 0xAB#8 :: encodeIdx m
  | .cmpxIdx m => 0xAC#8 :: encodeIdx m
  | .jsrIdx m => 0xAD#8 :: encodeIdx m
  | .ldxIdx m => 0xAE#8 :: encodeIdx m
  | .stxIdx m => 0xAF#8 :: encodeIdx m
  | .subaExt addr => 0xB0#8 :: wordBytes addr
  | .cmpaExt addr => 0xB1#8 :: wordBytes addr
  | .sbcaExt addr => 0xB2#8 :: wordBytes addr
  | .subdExt addr => 0xB3#8 :: wordBytes addr
  | .andaExt addr => 0xB4#8 :: wordBytes addr
  | .bitaExt addr => 0xB5#8 :: wordBytes addr
  | .ldaExt addr => 0xB6#8 :: wordBytes addr
  | .staExt addr => 0xB7#8 :: wordBytes addr
  | .eoraExt addr => 0xB8#8 :: wordBytes addr
  | .adcaExt addr => 0xB9#8 :: wordBytes addr
  | .oraExt addr => 0xBA#8 :: wordBytes addr
  | .addaExt addr => 0xBB#8 :: wordBytes addr
  | .cmpxExt addr => 0xBC#8 :: wordBytes addr
  | .jsrExt addr => 0xBD#8 :: wordBytes addr
  | .ldxExt addr => 0xBE#8 :: wordBytes addr
  | .stxExt addr => 0xBF#8 :: wordBytes addr
  | .subbImm imm => [0xC0#8, imm]
  | .cmpbImm imm => [0xC1#8, imm]
  | .sbcbImm imm => [0xC2#8, imm]
  | .adddImm imm => 0xC3#8 :: wordBytes imm
  | .andbImm imm => [0xC4#8, imm]
  | .bitbImm imm => [0xC5#8, imm]
  | .ldbImm imm => [0xC6#8, imm]
  | .eorbImm imm => [0xC8#8, imm]
  | .adcbImm imm => [0xC9#8, imm]
  | .orbImm imm => [0xCA#8, imm]
  | .addbImm imm => [0xCB#8, imm]
  | .lddImm imm => 0xCC#8 :: wordBytes imm
  | .lduImm imm => 0xCE#8 :: wordBytes imm
  | .subbDir lo => [0xD0#8, lo]
  | .cmpbDir lo => [0xD1#8, lo]
  | .sbcbDir lo => [0xD2#8, lo]
  | .adddDir lo => [0xD3#8, lo]
  | .andbDir lo => [0xD4#8, lo]
  | .bitbDir lo => [0xD5#8, lo]
  | .ldbDir lo => [0xD6#8, lo]
  | .stbDir lo => [0xD7#8, lo]
  | .eorbDir lo => [0xD8#8, lo]
  | .adcbDir lo => [0xD9#8, lo]
  | .orbDir lo => [0xDA#8, lo]
  | .addbDir lo => [0xDB#8, lo]
  | .lddDir lo => [0xDC#8, lo]
  | .stdDir lo => [0xDD#8, lo]
  | .lduDir lo => [0xDE#8, lo]
  | .stuDir lo => [0xDF#8, lo]
  | .subbIdx m => 0xE0#8 :: encodeIdx m
  | .cmpbIdx m => 0xE1#8 :: encodeIdx m
  | .sbcbIdx m => 0xE2#8 :: encodeIdx m
  | .adddIdx m => 0xE3#8 :: encodeIdx m
  | .andbIdx m => 0xE4#8 :: encodeIdx m
  | .bitbIdx m => 0xE5#8 :: encodeIdx m
  | .ldbIdx m => 0xE6#8 :: encodeIdx m
  | .stbIdx m => 0xE7#8 :: encodeIdx m
  | .eorbIdx m => 0xE8#8 :: encodeIdx m
  | .adcbIdx m => 0xE9#8 :: encodeIdx m
  | .orbIdx m => 0xEA#8 :: encodeIdx m
  | .addbIdx m => 0xEB#8 :: encodeIdx m
  | .lddIdx m => 0xEC#8 :: encodeIdx m
  | .stdIdx m => 0xED#8 :: encodeIdx m
  | .lduIdx m => 0xEE#8 :: encodeIdx m
  | .stuIdx m => 0xEF#8 :: encodeIdx m
  | .subbExt addr => 0xF0#8 :: wordBytes addr
  | .cmpbExt addr => 0xF1#8 :: wordBytes addr
  | .sbcbExt addr => 0xF2#8 :: wordBytes addr
  | .adddExt addr => 0xF3#8 :: wordBytes addr
  | .andbExt addr => 0xF4#8 :: wordBytes addr
  | .bitbExt addr => 0xF5#8 :: wordBytes addr
  | .ldbExt addr => 0xF6#8 :: wordBytes addr
  | .stbExt addr => 0xF7#8 :: wordBytes addr
  | .eorbExt addr => 0xF8#8 :: wordBytes addr
  | .adcbExt addr => 0xF9#8 :: wordBytes addr
  | .orbExt addr => 0xFA#8 :: wordBytes addr
  | .addbExt addr => 0xFB#8 :: wordBytes addr
  | .lddExt addr => 0xFC#8 :: wordBytes addr
  | .stdExt addr => 0xFD#8 :: wordBytes addr
  | .lduExt addr => 0xFE#8 :: wordBytes addr
  | .stuExt addr => 0xFF#8 :: wordBytes addr
  | .lbrn off => 0x10#8 :: 0x21#8 :: wordBytes off
  | .lbhi off => 0x10#8 :: 0x22#8 :: wordBytes off
  | .lbls off => 0x10#8 :: 0x23#8 :: wordBytes off
  | .lbcc off => 0x10#8 :: 0x24#8 :: wordBytes off
  | .lbcs off => 0x10#8 :: 0x25#8 :: wordBytes off
  | .lbne off => 0x10#8 :: 0x26#8 :: wordBytes off
  | .lbeq off => 0x10#8 :: 0x27#8 :: wordBytes off
  | .lbvc off => 0x10#8 :: 0x28#8 :: wordBytes off
  | .lbvs off => 0x10#8 :: 0x29#8 :: wordBytes off
  | .lbpl off => 0x10#8 :: 0x2A#8 :: wordBytes off
  | .lbmi off => 0x10#8 :: 0x2B#8 :: wordBytes off
  | .lbge off => 0x10#8 :: 0x2C#8 :: wordBytes off
  | .lblt off => 0x10#8 :: 0x2D#8 :: wordBytes off
  | .lbgt off => 0x10#8 :: 0x2E#8 :: wordBytes off
  | .lble off => 0x10#8 :: 0x2F#8 :: wordBytes off
  | .swi2 => [0x10#8, 0x3F#8]
  | .cmpdImm imm => 0x10#8 :: 0x83#8 :: wordBytes imm
  | .cmpyImm imm => 0x10#8 :: 0x8C#8 :: wordBytes imm
  | .ldyImm imm => 0x10#8 :: 0x8E#8 :: wordBytes imm
  | .cmpdDir lo => [0x10#8, 0x93#8, lo]
  | .cmpyDir lo => [0x10#8, 0x9C#8, lo]
  | .ldyDir lo => [0x10#8, 0x9E#8, lo]
  | .styDir lo => [0x10#8, 0x9F#8, lo]
  | .cmpdIdx m => 0x10#8 :: 0xA3#8 :: encodeIdx m
  | .cmpyIdx m => 0x10#8 :: 0xAC#8 :: encodeIdx m
  | .ldyIdx m => 0x10#8 :: 0xAE#8 :: encodeIdx m
  | .styIdx m => 0x10#8 :: 0xAF#8 :: encodeIdx m
  | .cmpdExt addr => 0x10#8 :: 0xB3#8 :: wordBytes addr
  | .cmpyExt addr => 0x10#8 :: 0xBC#8 :: wordBytes addr
  | .ldyExt addr => 0x10#8 :: 0xBE#8 :: wordBytes addr
  | .styExt addr => 0x10#8 :: 0xBF#8 :: wordBytes addr
  | .ldsImm imm => 0x10#8 :: 0xCE#8 :: wordBytes imm
  | .ldsDir lo => [0x10#8, 0xDE#8, lo]
  | .stsDir lo => [0x10#8, 0xDF#8, lo]
  | .ldsIdx m => 0x10#8 :: 0xEE#8 :: encodeIdx m
  | .stsIdx m => 0x10#8 :: 0xEF#8 :: encodeIdx m
  | .ldsExt addr => 0x10#8 :: 0xFE#8 :: wordBytes addr
  | .stsExt addr => 0x10#8 :: 0xFF#8 :: wordBytes addr
  | .swi3 => [0x11#8, 0x3F#8]
  | .cmpuImm imm => 0x11#8 :: 0x83#8 :: wordBytes imm
  | .cmpsImm imm => 0x11#8 :: 0x8C#8 :: wordBytes imm
  | .cmpuDir lo => [0x11#8, 0x93#8, lo]
  | .cmpsDir lo => [0x11#8, 0x9C#8, lo]
  | .cmpuIdx m => 0x11#8 :: 0xA3#8 :: encodeIdx m
  | .cmpsIdx m => 0x11#8 :: 0xAC#8 :: encodeIdx m
  | .cmpuExt addr => 0x11#8 :: 0xB3#8 :: wordBytes addr
  | .cmpsExt addr => 0x11#8 :: 0xBC#8 :: wordBytes addr

/-! ### The table's numbers -/

/-- The `n` whole bytes of a number, the most significant first. -/
def bytesOfNat : Nat → Nat → List Byte
  | 0, _ => []
  | n + 1, w => BitVec.ofNat 8 (w / 256 ^ n) :: bytesOfNat n w

/-- The bytes, in fetch order, of an instruction given as a number of `nbits` bits. spec/opcode_table.json writes
a Page 2 or Page 3 row as ONE number whose MOST significant byte is the prebyte (R131: "first byte most
significant"), so a number with a prebyte on top is read from its top byte down. Any other number is read from
its lowest byte up (log entry 23). A row of one byte reads the same either way. -/
def tableBytes (nbits w : Nat) : List Byte :=
  let down := bytesOfNat (nbits / 8) w
  match down with
  | top :: _ => if isPrebyte top then down else down.reverse
  | [] => []

/-- `tableBytes` followed by zeros up to the longest instruction, five bytes (R90). -/
def tableWordBytes (nbits w : Nat) : List Byte :=
  tableBytes nbits w ++ List.replicate (5 - nbits / 8) 0x00#8

/-- The instruction the decoder reads from the bits `w` of a row of spec/opcode_table.json, every bit above
`nbits` being 0; `none` where the decoder refuses. -/
def decodeTableWord (nbits w : Nat) : Option Instr :=
  match decode (tableWordBytes nbits w) with
  | .ok (i, _) => some i
  | .error _ => none

end Sys2Proof
end

