-- ==== Sys2Proof/Machine/Fetch.lean ====
section
/-! DEFINITION. Fetching an instruction (spec 00_scope.md R15, R16; 30_encoding.md R91, R92). -/

namespace Sys2Proof.Machine

/-- The `n` bytes at rising addresses from `a`, modulo 2^16 (R15). -/
def State.bytesFrom (st : State) : Nat → Word → List Byte
  | 0, _ => []
  | n + 1, a => st.busRead .fetch a :: st.bytesFrom n (a + 1#16)

/-- The bytes that a fetch at `a` may read, `fuel` prebytes at the most: the prebytes (R91, R92), then the opcode
and the three bytes that its operands can take (R90). From 65,533 prebytes on the window comes back to addresses that
it has read; that a device cell answers both reads with the same byte is the model's choice, DESIGN CHOICE (R62 leaves it
to the platform; log entries 21 and 35). -/
def State.fetchWindow (st : State) : Nat → Word → List Byte
  | 0, _ => []
  | fuel + 1, a =>
    if isPrebyte (st.busRead .fetch a) then st.busRead .fetch a :: st.fetchWindow fuel (a + 1#16)
    else st.bytesFrom 4 a

/-- The bytes at PC: 65,536 prebytes would be the whole memory, so that no opcode is ever missed. -/
def State.fetchBytes (st : State) : List Byte := st.fetchWindow 65536 st.pc

/-- Fetch and decode one instruction: the instruction, and the state with PC past its last byte (R15). Bytes that
end before an opcode are prebytes all the way round the memory. -/
def State.fetchInstr (st : State) : Host.Outcome (Instr × State) Fault Refusal :=
  match decode st.fetchBytes with
  | .ok (i, rest) =>
    .next (i, { st with pc := st.pc + BitVec.ofNat 16 (st.fetchBytes.length - rest.length) })
  | .error .truncated => .fault .endlessPrebytes
  | .error .unusedOpcode => .refused .unusedOpcode
  | .error .undefinedPostbyte => .refused .undefinedPostbyte
  | .error .invalidRegisterPair => .refused .invalidRegisterPair

/-- The platform with memory at the bytes of an instruction: as it is, or, where a device would answer at one of them,
with RAM there. -/
def Platform.withMemoryAt (p : Platform) (a : Word) (n : Nat) : Platform :=
  if (List.range n).all fun k => p.kindAt (a + BitVec.ofNat 16 k) != .device then p
  else { p with regions := { base := a, size := n, kind := .ram } :: p.regions }

/-- The state with the bytes of an instruction stored at PC, in ROM too, Running, no input line active and no NMI
pending, so that the next step fetches it. -/
def State.placeAtPC (st : State) (bytes : List Byte) : State :=
  { st with
    mem := st.mem.writeAll st.pc bytes
    platform := st.platform.withMemoryAt st.pc bytes.length
    run := .running
    inputs := []
    nmiPending := false }

end Sys2Proof.Machine
end

