-- ==== Sys2Proof/Machine/Interrupts.lean ====
section
/-! DEFINITION. The input lines at an instruction boundary and in the wait states (spec 60_exceptions.md R431 to
R434, R447 to R449, R460; 70_reset_and_hazards.md R490): everything a step does before, or instead of, an
instruction. -/

namespace Sys2Proof.Machine

/-- What the input lines make of a step. -/
inductive Control where
  /-- The step ends in this state; no instruction runs. -/
  | done (st : State)
  /-- One instruction is fetched and executed from this state (R447 step 6). -/
  | execute (st : State)
  /-- The spec does not describe the step. -/
  | refuse (r : Refusal)
deriving DecidableEq, Repr

/-- The sample of this step: the head of `inputs`; the lines are inactive when none is left (D12). -/
def State.sample (st : State) : Sample := st.inputs.headD Sample.quiet

/-- The state as a step begins: its sample is used up, and the time of the platform's answers moves on. -/
def State.beginStep (st : State) : State := { st with inputs := st.inputs.tail, busTime := st.busTime + 1 }

/-- A falling edge of NMI sets `nmi_pending`; while NMI is disarmed the parameter of D10 decides whether the edge
is remembered (R40, R432, R441). Log entry 6. -/
def State.latchNmi (st : State) (p : Sample) : State :=
  { st with nmiPending :=
      st.nmiPending || (p.nmiEdge && (st.nmiArmed || Config.nmiLatchedWhileDisarmed)) }

/-- The request that R447 steps 3 to 5 take, if any: NMI latched and armed, then FIRQ low with F clear, then IRQ low
with I clear (R434). -/
def State.request (st : State) (p : Sample) : Option Event :=
  if st.nmiPending && st.nmiArmed then some .nmi
  else if p.firq && !st.cc.f then some .firq
  else if p.irq && !st.cc.i then some .irq
  else none

/-- Taking an NMI clears its latch (R432, R441); FIRQ and IRQ have none (R41). -/
def State.acknowledge (st : State) (ev : Event) : State :=
  { st with nmiPending := st.nmiPending && ev != .nmi }

/-- The entry sequence of a hardware interrupt (R441, R442, R443). -/
def State.enterInterrupt (st : State) (ev : Event) : State := (st.acknowledge ev).takeException ev

/-- The order of testing of R447, in the Running state and in the Halted state (R460): RESET, HALT, then the three
interrupts; with none of them, an instruction. Going on after a halt ends a halt that RESET began. -/
def State.atBoundary (st : State) (p : Sample) : Control :=
  if p.reset then .done { st with run := .inReset }
  else if p.halt then .done { st.latchNmi p with run := .halted }
  else
    match (st.latchNmi p).request p with
    | some ev => .done ({ st.latchNmi p with run := .running, resetHalt := false }.enterInterrupt ev)
    | none => .execute { st.latchNmi p with run := .running, resetHalt := false }

/-- The lines as they count for taking an interrupt that ends the Sync state: a pulse too short to be sure to be
taken counts or not by a free bit (R448, D18). -/
def State.synchronized (st : State) (p : Sample) : Sample :=
  { p with
    firq := p.firq && (!p.firqBrief || Config.briefPulseTaken st.draws)
    irq := p.irq && (!p.irqBrief || Config.briefPulseTaken (st.draws + p.firqBrief.toNat)) }

/-- The Sync state has ended (R411, R448): an interrupt that qualifies is taken by its normal sequence, otherwise
execution goes on with the instruction after SYNC, in the next step (log entry 31). -/
def State.leaveSync (st : State) (p : Sample) : State :=
  let s1 : State :=
    { st with
      run := .running
      resetHalt := false
      draws := st.draws + p.firqBrief.toNat + p.irqBrief.toNat }
  match st.request (st.synchronized p) with
  | some ev => s1.enterInterrupt ev
  | none => s1

/-- One step of the Sync state (R411, R448): any of NMI latched, FIRQ low, IRQ low ends it, masked or not. HALT is
not described here (R460, D13). -/
def State.inSync (st : State) (p : Sample) : Control :=
  if p.reset then .done { st with run := .inReset }
  else if p.halt then .refuse .haltDuringWait
  else if (st.latchNmi p).nmiPending || p.firq || p.irq then .done ((st.latchNmi p).leaveSync p)
  else .done st

/-- One step of the CwaiWait state (R403, R449): only a request that qualifies ends it, and nothing more is
stacked. HALT is not described here (R460, D13). -/
def State.inCwai (st : State) (p : Sample) : Control :=
  if p.reset then .done { st with run := .inReset }
  else if p.halt then .refuse .haltDuringWait
  else
    match (st.latchNmi p).request p with
    | some ev => .done ({ (st.latchNmi p).acknowledge ev with run := .running, resetHalt := false }.enterHandler ev)
    | none => .done (st.latchNmi p)

/-- The RESET sequence after the release of the line (R490). The registers and flags that R44 leaves unspecified
take free values (D7, log entry 3). -/
def State.resetSequence (st : State) (halt : Bool) : State where
  a := Config.undefByte st.draws
  b := Config.undefByte (st.draws + 1)
  x := Config.undefWord st.draws
  y := Config.undefWord (st.draws + 1)
  u := Config.undefWord (st.draws + 2)
  s := Config.undefWord (st.draws + 3)
  pc := st.read16 resetVector
  dp := 0x00#8
  cc :=
    { e := Config.undefBit st.draws, f := true, h := Config.undefBit (st.draws + 1), i := true,
      n := Config.undefBit (st.draws + 2), z := Config.undefBit (st.draws + 3),
      v := Config.undefBit (st.draws + 4), c := Config.undefBit (st.draws + 5) }
  nmiArmed := false
  nmiPending := false
  run := if halt then .halted else .running
  resetHalt := halt
  mem := st.mem
  platform := st.platform
  busTime := st.busTime
  inputs := st.inputs
  draws := st.draws + 6

/-- One step of the InReset state (R490): nothing happens and no interrupt is latched while the line stays low; its
release starts the RESET sequence. -/
def State.inResetState (st : State) (p : Sample) : Control :=
  if p.reset then .done st else .done (st.resetSequence p.halt)

/-- What the sample of this step makes of the state, by its run state (R42). -/
def State.control (st : State) : Control :=
  match st.run with
  | .running | .halted => st.beginStep.atBoundary st.sample
  | .sync => st.beginStep.inSync st.sample
  | .cwaiWait => st.beginStep.inCwai st.sample
  | .inReset => st.beginStep.inResetState st.sample

end Sys2Proof.Machine
end

