-- ==== Sys2Proof/Machine/Step.lean ====
section
/-! DEFINITION. One step of the processor (spec 00_scope.md R16): the input lines first, then at most one
instruction. -/

namespace Sys2Proof.Machine

/-- One step (R16, R447 to R449, R490). -/
def step (st : State) : Host.Outcome State Fault Refusal :=
  match st.control with
  | .done s1 => .next s1
  | .refuse r => .refused r
  | .execute s1 =>
    match s1.fetchInstr with
    | .next (i, s2) => exec i s2
    | .fault f => .fault f
    | .refused r => .refused r

/-- `s` with an instruction of spec/opcode_table.json, given as its `nbits` bits `w`, stored where the next step
fetches. It stands for the load of a program from outside the machine (log entry 22). -/
def State.withFetchWord (s : State) (nbits w : Nat) : State := s.placeAtPC (tableWordBytes nbits w)

end Sys2Proof.Machine
end

