-- ==== Sys2Proof/Safety.lean ====
section
/-! DEFINITION. What counts as a safe run, in the terms that claims use. -/

namespace Sys2Proof.Machine

/-- The invariant of the machine's states: memory is in its canonical form. Every other field is legal at every
value. -/
def State.wf (st : State) : Bool := Memory.wf st.mem

/-- The state answers a next state for `n` steps: no fault and no refusal among them. That a run is measured in steps
and has no end of its own is the model's choice, DESIGN CHOICE: the spec leaves `end_of_run` to the model's user (D14).
Log entry 36. -/
def Completes (n : Nat) (st : State) : Prop := ∃ t : State, Sys2Proof.core.run n st = .next t

/-- A safe run that goes on for ever: no step of it ends in a fault or a refusal. The model's choice where `end_of_run`
is the predicate that never holds (D14, log entry 36). -/
def Safe (st : State) : Prop := ∀ n : Nat, Completes n st

/-- A run that is safe up to its end, `end_of_run` being a predicate on states that the model's user supplies (R5, D14):
for every number of steps it answers a next state, or the predicate held of a state on the way. -/
def SafeUntil (endOfRun : State → Prop) (st : State) : Prop :=
  ∀ n : Nat, Completes n st ∨ ∃ (k : Nat) (t : State), k ≤ n ∧ Sys2Proof.core.run k st = .next t ∧ endOfRun t

end Sys2Proof.Machine
end

