-- ==== Sys2Proof/Certificates/Slice0/Obligations.lean ====
section
/-! DEFINITION. The statements for the provers. The predicates of `Sys2Proof.Claims` say results in plain natural
and integer arithmetic, apart from the model's own flag functions; each `Obligations.<Name>` is one statement.
In a statement about an instruction, `st` is the state in which the instruction is executed: PC is already the
address of the next instruction (00_scope.md R15). -/

namespace Sys2Proof.Claims

open Sys2Proof Sys2Proof.Machine

/-! ### Completion and memory -/

/-- The instruction answers a next state, and that state has the property. -/
def Answers (i : Instr) (st : State) (post : State → Prop) : Prop :=
  ∃ t : State, exec i st = .next t ∧ post t

/-- RAM answers at the `n` addresses from `p` on, modulo 2^16. -/
def AllRam (st : State) (p : Word) (n : Nat) : Prop := ∀ k < n, st.kindAt (p + BitVec.ofNat 16 k) = .ram

/-- The bytes lie in memory, RAM or ROM, at rising addresses from `p`, modulo 2^16. -/
def LiesAt (st : State) (p : Word) (bytes : List Byte) : Prop :=
  ∀ (k : Nat) (h : k < bytes.length),
    st.kindAt (p + BitVec.ofNat 16 k) ≠ .device ∧ st.read8 (p + BitVec.ofNat 16 k) = bytes[k]

/-- The bytes were written at rising addresses from `p`, modulo 2^16: RAM holds them, ROM and devices answer as
before (R62). -/
def StoredAt (st t : State) (p : Word) (bytes : List Byte) : Prop :=
  ∀ (k : Nat) (h : k < bytes.length),
    t.read8 (p + BitVec.ofNat 16 k) =
      if st.kindAt (p + BitVec.ofNat 16 k) = .ram then bytes[k] else st.read8 (p + BitVec.ofNat 16 k)

/-- Every byte outside the `n` addresses from `p` on, modulo 2^16, reads as before. -/
def UnchangedOutside (st t : State) (p : Word) (n : Nat) : Prop :=
  ∀ q : Word, n ≤ (q - p).toNat → t.read8 q = st.read8 q

/-- The bytes were stored from `p` on, and no other byte of memory changed. -/
def Stored (st t : State) (p : Word) (bytes : List Byte) : Prop :=
  StoredAt st t p bytes ∧ UnchangedOutside st t p bytes.length

/-- A word as it lies in memory: the more significant byte at the lower address (R63). -/
def bytesOf (v : Word) : List Byte := [BitVec.ofNat 8 (v.toNat / 256), BitVec.ofNat 8 (v.toNat % 256)]

/-! ### The operand forms -/

/-- An operation on a byte operand in its four forms. `post v s t` speaks of the operand byte, the state `s` whose
pointer register, if any, is already adjusted (R117), and the next state. -/
def ByteForms (imm dir : Byte → Instr) (idx : Idx → Instr) (ext : Word → Instr)
    (post : Byte → State → State → Prop) : Prop :=
  ∀ st : State,
    (∀ v, Answers (imm v) st (post v st)) ∧
    (∀ lo, Answers (dir lo) st (post (st.read8 (wordOf st.dp lo)) st)) ∧
    (∀ m, Answers (idx m) st (post (st.read8 (st.indexedEA m)) (st.afterIndex m))) ∧
    (∀ a, Answers (ext a) st (post (st.read8 a) st))

/-- An operation on a word operand in its four forms. -/
def WordForms (imm : Word → Instr) (dir : Byte → Instr) (idx : Idx → Instr) (ext : Word → Instr)
    (post : Word → State → State → Prop) : Prop :=
  ∀ st : State,
    (∀ v, Answers (imm v) st (post v st)) ∧
    (∀ lo, Answers (dir lo) st (post (st.read16 (wordOf st.dp lo)) st)) ∧
    (∀ m, Answers (idx m) st (post (st.read16 (st.indexedEA m)) (st.afterIndex m))) ∧
    (∀ a, Answers (ext a) st (post (st.read16 a) st))

/-- An operation on an effective address in its three forms. -/
def AddressForms (dir : Byte → Instr) (idx : Idx → Instr) (ext : Word → Instr)
    (post : Word → State → State → Prop) : Prop :=
  ∀ st : State,
    (∀ lo, Answers (dir lo) st (post (wordOf st.dp lo) st)) ∧
    (∀ m, Answers (idx m) st (post (st.indexedEA m) (st.afterIndex m))) ∧
    (∀ a, Answers (ext a) st (post a st))

/-! ### Results and flags -/

/-- N and Z of a byte, V cleared. -/
def testFlags8 (cc : CC) (r : Byte) : CC :=
  { cc with n := decide (128 ≤ r.toNat), z := decide (r.toNat = 0), v := false }

/-- N and Z of a word, V cleared. -/
def testFlags16 (cc : CC) (r : Word) : CC :=
  { cc with n := decide (32768 ≤ r.toNat), z := decide (r.toNat = 0), v := false }

/-- Does the exact signed result lie outside the 8-bit range? -/
def overflows8 (exact : Int) : Bool := decide (exact < -128 ∨ 127 < exact)

/-- Does the exact signed result lie outside the 16-bit range? -/
def overflows16 (exact : Int) : Bool := decide (exact < -32768 ∨ 32767 < exact)

/-- `acc + v + carry`: the sum, with H, N, Z, V and C; nothing else changes. -/
def AddPost (r : Acc) (carry : State → Bool) (v : Byte) (s t : State) : Prop :=
  let c := (carry s).toNat
  let sum := (s.acc r).toNat + v.toNat + c
  t = { s.setAcc r (BitVec.ofNat 8 sum) with
        cc := { s.cc with
          h := decide (16 ≤ (s.acc r).toNat % 16 + v.toNat % 16 + c)
          n := decide (128 ≤ sum % 256)
          z := decide (sum % 256 = 0)
          v := overflows8 ((s.acc r).toInt + v.toInt + (c : Int))
          c := decide (256 ≤ sum) } }

/-- The flags of `x - y - borrow`, with the given H. -/
def differenceFlags8 (cc : CC) (x y : Byte) (borrow h : Bool) : CC :=
  let d : Int := (x.toNat : Int) - (y.toNat : Int) - (borrow.toNat : Int)
  { cc with
    h := h
    n := decide (128 ≤ d % 256)
    z := decide (d % 256 = 0)
    v := overflows8 (x.toInt - y.toInt - (borrow.toNat : Int))
    c := decide (d < 0) }

/-- `acc - v - borrow` into the accumulator: H is some bit, nothing else changes. -/
def SubPost (r : Acc) (borrow : State → Bool) (v : Byte) (s t : State) : Prop :=
  ∃ (h : Bool) (d : Nat),
    t = { s.setAcc r (BitVec.ofInt 8 ((s.acc r).toNat - v.toNat - (borrow s).toNat)) with
          cc := differenceFlags8 s.cc (s.acc r) v (borrow s) h
          draws := d }

/-- The flags of `acc - v`: H is some bit, no register changes. -/
def ComparePost (r : Acc) (v : Byte) (s t : State) : Prop :=
  ∃ (h : Bool) (d : Nat), t = { s with cc := differenceFlags8 s.cc (s.acc r) v false h, draws := d }

/-- A value computed from the accumulator and the operand goes to the accumulator; N and Z follow it, V is
cleared. -/
def AccPost (r : Acc) (f : Byte → Byte → Byte) (v : Byte) (s t : State) : Prop :=
  t = { s.setAcc r (f (s.acc r) v) with cc := testFlags8 s.cc (f (s.acc r) v) }

/-- N and Z follow a value computed from the accumulator and the operand, V is cleared; no register changes. -/
def TestPost (r : Acc) (f : Byte → Byte → Byte) (v : Byte) (s t : State) : Prop :=
  t = { s with cc := testFlags8 s.cc (f (s.acc r) v) }

/-- The accumulator is stored at the effective address; N and Z follow it, V is cleared. -/
def StorePost8 (r : Acc) (ea : Word) (s t : State) : Prop :=
  Stored s t ea [s.acc r] ∧ t = { s with mem := t.mem, cc := testFlags8 s.cc (s.acc r) }

/-- A single-operand instruction in its five forms, on memory and on either accumulator: the operand is replaced by
`res`, the flags become `flags` with some bit for H where `freeH` says that H is undefined. -/
def UnaryForms (dir : Byte → Instr) (idx : Idx → Instr) (ext : Word → Instr) (onA onB : Instr)
    (res : Byte → CC → Byte) (flags : Byte → CC → CC) (freeH : Bool) : Prop :=
  AddressForms dir idx ext (fun ea s t =>
    Stored s t ea [res (s.read8 ea) s.cc] ∧
    ∃ (h : Bool) (d : Nat),
      t = { s with mem := t.mem, cc := { flags (s.read8 ea) s.cc with h := h }, draws := d } ∧
      (freeH = false → h = s.cc.h ∧ d = s.draws)) ∧
  ∀ (st : State) (r : Acc),
    Answers (match r with | .a => onA | .b => onB) st (fun t =>
      ∃ (h : Bool) (d : Nat),
        t = { st.setAcc r (res (st.acc r) st.cc) with
              cc := { flags (st.acc r) st.cc with h := h }
              draws := d } ∧
        (freeH = false → h = st.cc.h ∧ d = st.draws))

/-- The flags of `x + y` or `x - y` on words, from the result modulo 2^16, the exact signed result and the carry or
borrow. -/
def wordFlags (cc : CC) (r : Nat) (exact : Int) (c : Bool) : CC :=
  { cc with n := decide (32768 ≤ r), z := decide (r = 0), v := overflows16 exact, c := c }

/-- The flags of `x - y` on words. -/
def differenceFlags16 (cc : CC) (x y : Word) : CC :=
  wordFlags cc ((x.toNat + 65536 - y.toNat) % 65536) (x.toInt - y.toInt) (decide (x.toNat < y.toNat))

/-- The flags of a register minus the operand; no register changes. -/
def ComparePost16 (reg : State → Word) (v : Word) (s t : State) : Prop :=
  t = { s with cc := differenceFlags16 s.cc (reg s) v }

/-- The operand goes to a register (by `put`); N and Z follow it, V is cleared. -/
def LoadPost16 (put : Word → State → State) (v : Word) (s t : State) : Prop :=
  t = { put v s with cc := testFlags16 s.cc v }

/-- A register is stored at the effective address, high byte first; N and Z follow it, V is cleared. -/
def StorePost16 (reg : State → Word) (ea : Word) (s t : State) : Prop :=
  Stored s t ea (bytesOf (reg s)) ∧ t = { s with mem := t.mem, cc := testFlags16 s.cc (reg s) }

/-! ### Branches -/

/-- PC plus a signed offset, modulo 2^16. -/
def displaced (pc : Word) (off : Int) : Word := BitVec.ofInt 16 ((pc.toNat : Int) + off)

/-- A branch changes PC alone, and only if it is taken. -/
def BranchPost (taken : Bool) (off : Int) (st t : State) : Prop :=
  t = { st with pc := if taken then displaced st.pc off else st.pc }

/-- The short and the long branch of one condition. -/
def BranchPair (short : Byte → Instr) (long : Word → Instr) (taken : CC → Bool) : Prop :=
  ∀ st : State,
    (∀ off : Byte, Answers (short off) st (BranchPost (taken st.cc) off.toInt st)) ∧
    (∀ off : Word, Answers (long off) st (BranchPost (taken st.cc) off.toInt st))

/-- The ten branches that test an order, after flags that came from comparing `x` with `y`: the unsigned ones go by
the natural numbers, the signed ones by the integers (R386). -/
def BranchesDecide (t : State) (ux uy : Nat) (sx sy : Int) : Prop :=
  ∀ off : Byte,
    Answers (.bhi off) t (BranchPost (decide (ux > uy)) off.toInt t) ∧
    Answers (.bcc off) t (BranchPost (decide (ux ≥ uy)) off.toInt t) ∧
    Answers (.beq off) t (BranchPost (decide (ux = uy)) off.toInt t) ∧
    Answers (.bls off) t (BranchPost (decide (ux ≤ uy)) off.toInt t) ∧
    Answers (.bcs off) t (BranchPost (decide (ux < uy)) off.toInt t) ∧
    Answers (.bne off) t (BranchPost (decide (ux ≠ uy)) off.toInt t) ∧
    Answers (.bgt off) t (BranchPost (decide (sx > sy)) off.toInt t) ∧
    Answers (.bge off) t (BranchPost (decide (sx ≥ sy)) off.toInt t) ∧
    Answers (.ble off) t (BranchPost (decide (sx ≤ sy)) off.toInt t) ∧
    Answers (.blt off) t (BranchPost (decide (sx < sy)) off.toInt t)

/-- A call: the return address is stored below S, S goes down by two, PC takes the target. -/
def CallPost (target : Word) (s t : State) : Prop :=
  Stored s t (s.s - 2#16) (bytesOf s.pc) ∧ t = { s with mem := t.mem, s := s.s - 2#16, pc := target }

/-! ### Stacks -/

/-- The bytes if the bit is set, none otherwise. -/
def pick (bit : Bool) (bytes : List Byte) : List Byte := if bit then bytes else []

/-- The bytes that a push stores, the lowest address first: CC, A, B, DP, X, Y, the other stack pointer, PC, each
if its postbyte bit is set (R81, R121). -/
def pushedBytes (other : Word) (pb : Byte) (st : State) : List Byte :=
  pick (pb.getLsbD 0) [st.cc.toByte] ++ pick (pb.getLsbD 1) [st.a] ++ pick (pb.getLsbD 2) [st.b] ++
  pick (pb.getLsbD 3) [st.dp] ++ pick (pb.getLsbD 4) (bytesOf st.x) ++ pick (pb.getLsbD 5) (bytesOf st.y) ++
  pick (pb.getLsbD 6) (bytesOf other) ++ pick (pb.getLsbD 7) (bytesOf st.pc)

/-- How many bytes the registers of the postbyte bits below `bit` take. -/
def bytesBelow (pb : Byte) (bit : Nat) : Nat :=
  ((List.range bit).map fun k => if pb.getLsbD k then (if k < 4 then 1 else 2) else 0).sum

/-- The byte pulled for a bit of the postbyte, the old value where the bit is clear. -/
def pulled8 (st : State) (sp : Word) (pb : Byte) (bit : Nat) (old : Byte) : Byte :=
  if pb.getLsbD bit then st.read8 (sp + BitVec.ofNat 16 (bytesBelow pb bit)) else old

/-- The word pulled for a bit of the postbyte, the old value where the bit is clear. -/
def pulled16 (st : State) (sp : Word) (pb : Byte) (bit : Nat) (old : Word) : Word :=
  if pb.getLsbD bit then st.read16 (sp + BitVec.ofNat 16 (bytesBelow pb bit)) else old

/-- The registers that both kinds of pull load in the same way. -/
def pulledCommon (st : State) (sp : Word) (pb : Byte) : State :=
  { st with
    cc := CC.ofByte (pulled8 st sp pb 0 st.cc.toByte)
    a := pulled8 st sp pb 1 st.a
    b := pulled8 st sp pb 2 st.b
    dp := pulled8 st sp pb 3 st.dp
    x := pulled16 st sp pb 4 st.x
    y := pulled16 st sp pb 5 st.y
    pc := pulled16 st sp pb 7 st.pc }

/-- The frame of the entire state, offset 0 first (R81): CC with E set, A, B, DP, X, Y, U, PC. -/
def entireFrame (st : State) : List Byte :=
  [CC.toByte { st.cc with e := true }, st.a, st.b, st.dp] ++ bytesOf st.x ++ bytesOf st.y ++ bytesOf st.u ++
    bytesOf st.pc

/-- The frame of the subset state, offset 0 first (R81): CC with E clear, PC. -/
def subsetFrame (st : State) : List Byte := CC.toByte { st.cc with e := false } :: bytesOf st.pc

/-- The entire state is stacked below S and the handler is entered through the vector: E is set, I and F are set as
told, PC is the word at the vector (read after the stacking), nothing else changes. -/
def EntirePost (setI setF : Bool) (vector : Word) (st t : State) : Prop :=
  Stored st t (st.s - 12#16) (entireFrame st) ∧
  t = { st with
        mem := t.mem
        s := st.s - 12#16
        cc := { st.cc with e := true, i := st.cc.i || setI, f := st.cc.f || setF }
        pc := t.read16 vector }

/-- PC and CC are stacked below S and the handler of FIRQ is entered. -/
def SubsetPost (st t : State) : Prop :=
  Stored st t (st.s - 3#16) (subsetFrame st) ∧
  t = { st with
        mem := t.mem
        s := st.s - 3#16
        cc := { st.cc with e := false, i := true, f := true }
        pc := t.read16 0xFFF6#16 }

/-! ### Classes of instructions -/

/-- Are the two codes the same register, or D and one of its halves (R21, R119)? -/
def overlap (c r : RegCode) : Bool :=
  c == r || (c == .d && (r == .a || r == .b)) || (r == .d && (c == .a || c == .b))

/-- The first address and the number of the bytes that an instruction stores, with the same effective address
functions that the meanings use; no bytes for an instruction that stores nothing. -/
def storedRange (i : Instr) (st : State) : Word × Nat :=
  match i with
  | .staDir lo | .stbDir lo | .negDir lo | .comDir lo | .lsrDir lo | .rorDir lo | .asrDir lo | .aslDir lo
  | .rolDir lo | .decDir lo | .incDir lo | .clrDir lo => (st.directEA lo, 1)
  | .staIdx m | .stbIdx m | .negIdx m | .comIdx m | .lsrIdx m | .rorIdx m | .asrIdx m | .aslIdx m
  | .rolIdx m | .decIdx m | .incIdx m | .clrIdx m => (st.indexedEA m, 1)
  | .staExt a | .stbExt a | .negExt a | .comExt a | .lsrExt a | .rorExt a | .asrExt a | .aslExt a
  | .rolExt a | .decExt a | .incExt a | .clrExt a => (a, 1)
  | .stdDir lo | .stxDir lo | .styDir lo | .stuDir lo | .stsDir lo => (st.directEA lo, 2)
  | .stdIdx m | .stxIdx m | .styIdx m | .stuIdx m | .stsIdx m => (st.indexedEA m, 2)
  | .stdExt a | .stxExt a | .styExt a | .stuExt a | .stsExt a => (a, 2)
  | .bsr _ | .lbsr _ | .jsrDir _ | .jsrExt _ => (st.s - 2#16, 2)
  | .jsrIdx m => ((st.afterIndex m).s - 2#16, 2)
  | .pshs pb => (st.s - BitVec.ofNat 16 (bytesBelow pb 8), bytesBelow pb 8)
  | .pshu pb => (st.u - BitVec.ofNat 16 (bytesBelow pb 8), bytesBelow pb 8)
  | .swi | .swi2 | .swi3 | .cwai _ => (st.s - 12#16, 12)
  | _ => (0x0000#16, 0)

/-- The instructions that can write E, F or I: those that write CC as a whole (R37) and the software interrupts. -/
def writesMasks : Instr → Bool
  | .andcc _ | .orcc _ | .cwai _ | .rti | .swi | .swi2 | .swi3 => true
  | .tfr _ dst => dst == .cc
  | .exg src dst => src == .cc || dst == .cc
  | .puls pb | .pulu pb => pb.getLsbD 0
  | _ => false

/-- The instructions that write H by an addition, leave it undefined, or write CC as a whole (R34, R37). -/
def writesH : Instr → Bool
  | .adcaImm _ | .adcaDir _ | .adcaIdx _ | .adcaExt _ | .adcbImm _ | .adcbDir _ | .adcbIdx _ | .adcbExt _
  | .addaImm _ | .addaDir _ | .addaIdx _ | .addaExt _ | .addbImm _ | .addbDir _ | .addbIdx _ | .addbExt _
  | .subaImm _ | .subaDir _ | .subaIdx _ | .subaExt _ | .subbImm _ | .subbDir _ | .subbIdx _ | .subbExt _
  | .sbcaImm _ | .sbcaDir _ | .sbcaIdx _ | .sbcaExt _ | .sbcbImm _ | .sbcbDir _ | .sbcbIdx _ | .sbcbExt _
  | .cmpaImm _ | .cmpaDir _ | .cmpaIdx _ | .cmpaExt _ | .cmpbImm _ | .cmpbDir _ | .cmpbIdx _ | .cmpbExt _
  | .negDir _ | .negIdx _ | .negExt _ | .nega | .negb | .aslDir _ | .aslIdx _ | .aslExt _ | .asla | .aslb
  | .asrDir _ | .asrIdx _ | .asrExt _ | .asra | .asrb => true
  | .andcc _ | .orcc _ | .cwai _ | .rti => true
  | .tfr _ dst => dst == .cc
  | .exg src dst => src == .cc || dst == .cc
  | .puls pb | .pulu pb => pb.getLsbD 0
  | _ => false

/-- The instructions that can write DP: TFR, EXG and the pulls that name it, and RTI (R27, R410). -/
def writesDP : Instr → Bool
  | .tfr _ dst => dst == .dp
  | .exg src dst => src == .dp || dst == .dp
  | .puls pb | .pulu pb => pb.getLsbD 3
  | .rti => true
  | _ => false

/-- The instructions that can write PC (R25): branches, calls, jumps, returns, pulls, TFR and EXG that name PC, the
software interrupts. -/
def writesPC : Instr → Bool
  | .bra _ | .bhi _ | .bls _ | .bcc _ | .bcs _ | .bne _ | .beq _ | .bvc _ | .bvs _ | .bpl _ | .bmi _ | .bge _
  | .blt _ | .bgt _ | .ble _ | .lbra _ | .lbhi _ | .lbls _ | .lbcc _ | .lbcs _ | .lbne _ | .lbeq _ | .lbvc _
  | .lbvs _ | .lbpl _ | .lbmi _ | .lbge _ | .lblt _ | .lbgt _ | .lble _ | .bsr _ | .lbsr _ | .jsrDir _
  | .jsrIdx _ | .jsrExt _ | .jmpDir _ | .jmpIdx _ | .jmpExt _ | .rts | .rti | .swi | .swi2 | .swi3 => true
  | .tfr _ dst => dst == .pc
  | .exg src dst => src == .pc || dst == .pc
  | .puls pb | .pulu pb => pb.getLsbD 7
  | _ => false

/-- Is the parameter `nmi_arm_set` the wide set (D9)? -/
def wide (st : State) : Bool := decide (st.platform.nmiArmSet = .wide)

/-- LDS: it arms NMI whatever the parameter `nmi_arm_set` is (R39, D9). -/
def loadsS : Instr → Bool
  | .ldsImm _ | .ldsDir _ | .ldsIdx _ | .ldsExt _ => true
  | _ => false

/-- The other instructions with S as a destination: they arm NMI under the wide set (R39, R300, D9). -/
def assignsS : Instr → Bool
  | .leas _ => true
  | .tfr _ dst => dst == .s
  | .exg src dst => src == .s || dst == .s
  | .pulu pb => pb.getLsbD 6
  | _ => false

/-! ### Input lines -/

/-- The processor is at an instruction boundary: Running, or Halted. -/
def AtBoundary (st : State) : Prop := st.run = .running ∨ st.run = .halted

/-- NMI is armed, and latched before or by an edge in this sample. -/
def NmiRequested (st : State) (p : Sample) : Prop :=
  st.nmiArmed = true ∧ (st.nmiPending = true ∨ p.nmiEdge = true)

/-- FIRQ is low and not masked. -/
def FirqRequested (st : State) (p : Sample) : Prop := p.firq = true ∧ st.cc.f = false

/-- IRQ is low and not masked. -/
def IrqRequested (st : State) (p : Sample) : Prop := p.irq = true ∧ st.cc.i = false

/-- Neither RESET nor HALT is low. -/
def Free (p : Sample) : Prop := p.reset = false ∧ p.halt = false

/-- The state an interrupt is taken from, or an instruction fetched in: Running, its sample used up, one step later,
the NMI latch as given. -/
def interrupted (st : State) (pending : Bool) : State :=
  { st with
    run := .running
    resetHalt := false
    inputs := st.inputs.tail
    busTime := st.busTime + 1
    nmiPending := pending }

/-- The NMI latch after a sample: what an edge does while disarmed is the parameter of D10. -/
def latchAfter (st : State) (p : Sample) : Bool := (st.latchNmi p).nmiPending

end Sys2Proof.Claims

open Sys2Proof Sys2Proof.Machine Sys2Proof.Claims

/-! ### 8-bit accumulator instructions with a memory operand -/

/-- ADCA, ADCB, ADDA, ADDB in every form (R152 to R155). -/
def Obligations.AddInstructions : Prop :=
  ByteForms .adcaImm .adcaDir .adcaIdx .adcaExt (AddPost .a (fun s => s.cc.c)) ∧
  ByteForms .adcbImm .adcbDir .adcbIdx .adcbExt (AddPost .b (fun s => s.cc.c)) ∧
  ByteForms .addaImm .addaDir .addaIdx .addaExt (AddPost .a (fun _ => false)) ∧
  ByteForms .addbImm .addbDir .addbIdx .addbExt (AddPost .b (fun _ => false))

/-- SUBA, SUBB, SBCA, SBCB in every form (R156 to R159). -/
def Obligations.SubtractInstructions : Prop :=
  ByteForms .subaImm .subaDir .subaIdx .subaExt (SubPost .a (fun _ => false)) ∧
  ByteForms .subbImm .subbDir .subbIdx .subbExt (SubPost .b (fun _ => false)) ∧
  ByteForms .sbcaImm .sbcaDir .sbcaIdx .sbcaExt (SubPost .a (fun s => s.cc.c)) ∧
  ByteForms .sbcbImm .sbcbDir .sbcbIdx .sbcbExt (SubPost .b (fun s => s.cc.c))

/-- CMPA, CMPB in every form (R160, R161). -/
def Obligations.CompareByteInstructions : Prop :=
  ByteForms .cmpaImm .cmpaDir .cmpaIdx .cmpaExt (ComparePost .a) ∧
  ByteForms .cmpbImm .cmpbDir .cmpbIdx .cmpbExt (ComparePost .b)

/-- AND, OR, EOR, BIT on A and B in every form (R162 to R169). -/
def Obligations.LogicInstructions : Prop :=
  ByteForms .andaImm .andaDir .andaIdx .andaExt (AccPost .a (fun x y => x &&& y)) ∧
  ByteForms .andbImm .andbDir .andbIdx .andbExt (AccPost .b (fun x y => x &&& y)) ∧
  ByteForms .bitaImm .bitaDir .bitaIdx .bitaExt (TestPost .a (fun x y => x &&& y)) ∧
  ByteForms .bitbImm .bitbDir .bitbIdx .bitbExt (TestPost .b (fun x y => x &&& y)) ∧
  ByteForms .eoraImm .eoraDir .eoraIdx .eoraExt (AccPost .a (fun x y => x ^^^ y)) ∧
  ByteForms .eorbImm .eorbDir .eorbIdx .eorbExt (AccPost .b (fun x y => x ^^^ y)) ∧
  ByteForms .oraImm .oraDir .oraIdx .oraExt (AccPost .a (fun x y => x ||| y)) ∧
  ByteForms .orbImm .orbDir .orbIdx .orbExt (AccPost .b (fun x y => x ||| y))

/-- LDA, LDB in every form (R170, R171). -/
def Obligations.LoadByteInstructions : Prop :=
  ByteForms .ldaImm .ldaDir .ldaIdx .ldaExt (AccPost .a (fun _ y => y)) ∧
  ByteForms .ldbImm .ldbDir .ldbIdx .ldbExt (AccPost .b (fun _ y => y))

/-- STA, STB in every form (R172, R173). -/
def Obligations.StoreByteInstructions : Prop :=
  AddressForms .staDir .staIdx .staExt (StorePost8 .a) ∧
  AddressForms .stbDir .stbIdx .stbExt (StorePost8 .b)

/-! ### 8-bit single-operand instructions -/

/-- NEG and COM in every form (R202 to R209). -/
def Obligations.NegateComplement : Prop :=
  UnaryForms .negDir .negIdx .negExt .nega .negb
    (fun m _ => BitVec.ofNat 8 (256 - m.toNat))
    (fun m cc => { cc with n := decide (1 ≤ m.toNat ∧ m.toNat ≤ 128), z := decide (m.toNat = 0),
                           v := decide (m.toNat = 128), c := decide (m.toNat ≠ 0) }) true ∧
  UnaryForms .comDir .comIdx .comExt .coma .comb
    (fun m _ => BitVec.ofNat 8 (255 - m.toNat))
    (fun m cc => { cc with n := decide (m.toNat < 128), z := decide (m.toNat = 255), v := false, c := true }) false

/-- LSR, ROR, ASR in every form (R210 to R221). -/
def Obligations.RightShifts : Prop :=
  UnaryForms .lsrDir .lsrIdx .lsrExt .lsra .lsrb
    (fun m _ => BitVec.ofNat 8 (m.toNat / 2))
    (fun m cc => { cc with n := false, z := decide (m.toNat < 2), c := decide (m.toNat % 2 = 1) }) false ∧
  UnaryForms .rorDir .rorIdx .rorExt .rora .rorb
    (fun m cc => BitVec.ofNat 8 (128 * cc.c.toNat + m.toNat / 2))
    (fun m cc => { cc with n := cc.c, z := !cc.c && decide (m.toNat < 2), c := decide (m.toNat % 2 = 1) }) false ∧
  UnaryForms .asrDir .asrIdx .asrExt .asra .asrb
    (fun m _ => BitVec.ofInt 8 (m.toInt / 2))
    (fun m cc => { cc with n := decide (m.toInt < 0), z := decide (m.toNat < 2), c := decide (m.toNat % 2 = 1) })
    true

/-- ASL (also LSL) and ROL in every form (R222 to R229). -/
def Obligations.LeftShifts : Prop :=
  UnaryForms .aslDir .aslIdx .aslExt .asla .aslb
    (fun m _ => BitVec.ofNat 8 (2 * m.toNat))
    (fun m cc => { cc with n := decide (64 ≤ m.toNat % 128), z := decide (m.toNat % 128 = 0),
                           v := overflows8 (2 * m.toInt), c := decide (128 ≤ m.toNat) }) true ∧
  UnaryForms .rolDir .rolIdx .rolExt .rola .rolb
    (fun m cc => BitVec.ofNat 8 (2 * m.toNat + cc.c.toNat))
    (fun m cc => { cc with n := decide (64 ≤ m.toNat % 128), z := !cc.c && decide (m.toNat % 128 = 0),
                           v := overflows8 (2 * m.toInt), c := decide (128 ≤ m.toNat) }) false

/-- INC, DEC, CLR in every form (R230 to R237, R242 to R245). -/
def Obligations.CountAndClear : Prop :=
  UnaryForms .incDir .incIdx .incExt .inca .incb
    (fun m _ => BitVec.ofNat 8 (m.toNat + 1))
    (fun m cc => { cc with n := decide (127 ≤ m.toNat ∧ m.toNat < 255), z := decide (m.toNat = 255),
                           v := overflows8 (m.toInt + 1) }) false ∧
  UnaryForms .decDir .decIdx .decExt .deca .decb
    (fun m _ => BitVec.ofNat 8 (m.toNat + 255))
    (fun m cc => { cc with n := decide (m.toNat = 0 ∨ 129 ≤ m.toNat), z := decide (m.toNat = 1),
                           v := overflows8 (m.toInt - 1) }) false ∧
  UnaryForms .clrDir .clrIdx .clrExt .clra .clrb
    (fun _ _ => 0x00#8)
    (fun _ cc => { cc with n := false, z := true, v := false, c := false }) false

/-- TST in every form (R238 to R241): the flags of the operand, nothing stored. -/
def Obligations.TestInstructions : Prop :=
  AddressForms .tstDir .tstIdx .tstExt (fun ea s t => t = { s with cc := testFlags8 s.cc (s.read8 ea) }) ∧
  ∀ st : State,
    Answers .tsta st (fun t => t = { st with cc := testFlags8 st.cc st.a }) ∧
    Answers .tstb st (fun t => t = { st with cc := testFlags8 st.cc st.b })

/-- MUL (R247): D is the product of A and B as natural numbers. -/
def Obligations.MultiplyInstruction : Prop :=
  ∀ st : State,
    Answers .mul st (fun t =>
      let p := st.a.toNat * st.b.toNat
      t = { st with
            a := BitVec.ofNat 8 (p / 256)
            b := BitVec.ofNat 8 (p % 256)
            cc := { st.cc with z := decide (p = 0), c := decide (128 ≤ p % 256) } })

/-- DAA (R246): the correction is 6 for the low digit and $60 for the high digit; V is some bit. -/
def Obligations.DecimalAdjust : Prop :=
  ∀ st : State,
    Answers .daa st (fun t =>
      let low := st.a.toNat % 16
      let high := st.a.toNat / 16
      let sum := st.a.toNat + (if st.cc.h = true ∨ 9 < low then 6 else 0) +
        (if st.cc.c = true ∨ 9 < high ∨ (8 < high ∧ 9 < low) then 0x60 else 0)
      ∃ (v : Bool) (d : Nat),
        t = { st with
              a := BitVec.ofNat 8 sum
              cc := { st.cc with n := decide (128 ≤ sum % 256), z := decide (sum % 256 = 0), v := v,
                                 c := st.cc.c || decide (256 ≤ sum) }
              draws := d })

/-- Decimal addition: ADCA of two packed decimal numbers and then DAA gives the packed decimal sum, C the carry out
of two digits (R152, R246). -/
def Obligations.DecimalAddition : Prop :=
  ∀ (st : State) (v : Byte),
    st.a.toNat % 16 ≤ 9 → st.a.toNat / 16 ≤ 9 → v.toNat % 16 ≤ 9 → v.toNat / 16 ≤ 9 →
    Answers (.adcaImm v) st (fun s =>
      Answers .daa s (fun t =>
        let total := (10 * (st.a.toNat / 16) + st.a.toNat % 16) + (10 * (v.toNat / 16) + v.toNat % 16) +
          st.cc.c.toNat
        t.a.toNat = 16 * (total % 100 / 10) + total % 10 ∧ t.cc.c = decide (100 ≤ total)))

/-! ### 16-bit instructions -/

/-- ADDD and SUBD in every form (R281, R282). -/
def Obligations.WordArithmetic : Prop :=
  WordForms .adddImm .adddDir .adddIdx .adddExt (fun v s t =>
    let sum := 256 * s.a.toNat + s.b.toNat + v.toNat
    t = { s with
          a := BitVec.ofNat 8 (sum / 256)
          b := BitVec.ofNat 8 (sum % 256)
          cc := wordFlags s.cc (sum % 65536) (s.d.toInt + v.toInt) (decide (65536 ≤ sum)) }) ∧
  WordForms .subdImm .subdDir .subdIdx .subdExt (fun v s t =>
    let diff := 256 * s.a.toNat + s.b.toNat + 65536 - v.toNat
    t = { s with
          a := BitVec.ofNat 8 (diff / 256)
          b := BitVec.ofNat 8 (diff % 256)
          cc := differenceFlags16 s.cc s.d v })

/-- CMPD, CMPX, CMPY, CMPU, CMPS in every form (R283, R301 to R304). -/
def Obligations.CompareWordInstructions : Prop :=
  WordForms .cmpdImm .cmpdDir .cmpdIdx .cmpdExt (ComparePost16 (fun s => wordOf s.a s.b)) ∧
  WordForms .cmpxImm .cmpxDir .cmpxIdx .cmpxExt (ComparePost16 (fun s => s.x)) ∧
  WordForms .cmpyImm .cmpyDir .cmpyIdx .cmpyExt (ComparePost16 (fun s => s.y)) ∧
  WordForms .cmpuImm .cmpuDir .cmpuIdx .cmpuExt (ComparePost16 (fun s => s.u)) ∧
  WordForms .cmpsImm .cmpsDir .cmpsIdx .cmpsExt (ComparePost16 (fun s => s.s))

/-- LDD, LDX, LDY, LDU, LDS in every form (R284, R305 to R308); LDS arms NMI (R300). -/
def Obligations.LoadWordInstructions : Prop :=
  WordForms .lddImm .lddDir .lddIdx .lddExt
    (LoadPost16 fun v s => { s with a := BitVec.ofNat 8 (v.toNat / 256), b := BitVec.ofNat 8 (v.toNat % 256) }) ∧
  WordForms .ldxImm .ldxDir .ldxIdx .ldxExt (LoadPost16 fun v s => { s with x := v }) ∧
  WordForms .ldyImm .ldyDir .ldyIdx .ldyExt (LoadPost16 fun v s => { s with y := v }) ∧
  WordForms .lduImm .lduDir .lduIdx .lduExt (LoadPost16 fun v s => { s with u := v }) ∧
  WordForms .ldsImm .ldsDir .ldsIdx .ldsExt (LoadPost16 fun v s => { s with s := v, nmiArmed := true })

/-- STD, STX, STY, STU, STS in every form (R285, R309 to R312). -/
def Obligations.StoreWordInstructions : Prop :=
  AddressForms .stdDir .stdIdx .stdExt (StorePost16 fun s => wordOf s.a s.b) ∧
  AddressForms .stxDir .stxIdx .stxExt (StorePost16 fun s => s.x) ∧
  AddressForms .styDir .styIdx .styExt (StorePost16 fun s => s.y) ∧
  AddressForms .stuDir .stuIdx .stuExt (StorePost16 fun s => s.u) ∧
  AddressForms .stsDir .stsIdx .stsExt (StorePost16 fun s => s.s)

/-- SEX (R287): D is B as a signed number; N and Z of D, V is some bit. -/
def Obligations.SignExtension : Prop :=
  ∀ st : State,
    Answers .sex st (fun t =>
      ∃ (v : Bool) (d : Nat),
        t = { st with
              a := if 128 ≤ st.b.toNat then 0xFF#8 else 0x00#8
              cc := { st.cc with n := decide (128 ≤ st.b.toNat), z := decide (st.b.toNat = 0), v := v }
              draws := d })

/-! ### Index registers, stacks, transfers -/

/-- LEAX, LEAY, LEAU, LEAS (R313 to R317): the address goes to the register after any adjustment of the pointer; LEAS
arms NMI under the wide set (R300, D9). ABX (R318): B counts as 0 to 255 and no flag changes. -/
def Obligations.PointerArithmetic : Prop :=
  ∀ (st : State) (m : Idx),
    Answers (.leax m) st (fun t =>
      t = { st.afterIndex m with x := st.indexedEA m, cc := { st.cc with z := decide ((st.indexedEA m).toNat = 0) } }) ∧
    Answers (.leay m) st (fun t =>
      t = { st.afterIndex m with y := st.indexedEA m, cc := { st.cc with z := decide ((st.indexedEA m).toNat = 0) } }) ∧
    Answers (.leau m) st (fun t => t = { st.afterIndex m with u := st.indexedEA m }) ∧
    Answers (.leas m) st (fun t => t = { st.afterIndex m with s := st.indexedEA m, nmiArmed := st.nmiArmed || wide st }) ∧
    Answers .abx st (fun t => t = { st with x := BitVec.ofNat 16 (st.x.toNat + st.b.toNat) })

/-- The effective addresses of the indexed forms without indirection (R101 to R113), modulo 2^16. -/
def Obligations.IndexedAddresses : Prop :=
  ∀ (st : State) (r : PtrReg),
    (∀ n, st.indexedEA (.off5 r n) = displaced (st.ptr r) n.toInt) ∧
    st.indexedEA (.inc1 r) = st.ptr r ∧
    st.indexedEA (.inc2 r false) = st.ptr r ∧
    st.indexedEA (.dec1 r) = displaced (st.ptr r) (-1) ∧
    st.indexedEA (.dec2 r false) = displaced (st.ptr r) (-2) ∧
    st.indexedEA (.zero r false) = st.ptr r ∧
    st.indexedEA (.accA r false) = displaced (st.ptr r) st.a.toInt ∧
    st.indexedEA (.accB r false) = displaced (st.ptr r) st.b.toInt ∧
    (∀ n, st.indexedEA (.off8 r false n) = displaced (st.ptr r) n.toInt) ∧
    (∀ n, st.indexedEA (.off16 r false n) = displaced (st.ptr r) n.toInt) ∧
    st.indexedEA (.accD r false) = displaced (st.ptr r) (256 * (st.a.toNat : Int) + (st.b.toNat : Int)) ∧
    (∀ n, st.indexedEA (.pc8 false n) = displaced st.pc n.toInt) ∧
    (∀ n, st.indexedEA (.pc16 false n) = displaced st.pc n.toInt)

/-- Indirection reads the effective address from memory, high byte first (R114, R115); auto increment and decrement
move the pointer register and nothing else (R102 to R105, R117). -/
def Obligations.IndirectionAndAdjustment : Prop :=
  (∀ (st : State) (r : PtrReg) (n : Byte) (w : Word),
    (∀ p ∈ [(Idx.inc2 r true, Idx.inc2 r false), (Idx.dec2 r true, Idx.dec2 r false),
            (Idx.zero r true, Idx.zero r false), (Idx.accA r true, Idx.accA r false),
            (Idx.accB r true, Idx.accB r false), (Idx.accD r true, Idx.accD r false),
            (Idx.off8 r true n, Idx.off8 r false n), (Idx.off16 r true w, Idx.off16 r false w),
            (Idx.pc8 true n, Idx.pc8 false n), (Idx.pc16 true w, Idx.pc16 false w)],
      (st.indexedEA p.1).toNat =
        256 * (st.busRead .pointer (st.indexedEA p.2)).toNat +
          (st.busRead .pointer (displaced (st.indexedEA p.2) 1)).toNat) ∧
    (st.indexedEA (.extInd w)).toNat =
      256 * (st.busRead .pointer w).toNat + (st.busRead .pointer (displaced w 1)).toNat) ∧
  (∀ (st : State) (r : PtrReg) (ind : Bool),
    (st.afterIndex (.inc1 r)).ptr r = displaced (st.ptr r) 1 ∧
    (st.afterIndex (.inc2 r ind)).ptr r = displaced (st.ptr r) 2 ∧
    (st.afterIndex (.dec1 r)).ptr r = displaced (st.ptr r) (-1) ∧
    (st.afterIndex (.dec2 r ind)).ptr r = displaced (st.ptr r) (-2) ∧
    ∀ m ∈ [Idx.inc1 r, Idx.inc2 r ind, Idx.dec1 r, Idx.dec2 r ind],
      (∀ q : PtrReg, q ≠ r → (st.afterIndex m).ptr q = st.ptr q) ∧
      { st.afterIndex m with x := st.x, y := st.y, u := st.u, s := st.s } = st) ∧
  (∀ (st : State) (r : PtrReg) (ind : Bool) (k : BitVec 5) (n : Byte) (w : Word),
    ∀ m ∈ [Idx.off5 r k, Idx.zero r ind, Idx.accA r ind, Idx.accB r ind, Idx.accD r ind, Idx.off8 r ind n,
           Idx.off16 r ind w, Idx.pc8 ind n, Idx.pc16 ind w, Idx.extInd w],
      st.afterIndex m = st)

/-- PSHS and PSHU (R321, R322): the selected registers, in the fixed layout, just below the old stack pointer. -/
def Obligations.PushInstructions : Prop :=
  ∀ (st : State) (pb : Byte),
    Answers (.pshs pb) st (fun t =>
      let sp := st.s - BitVec.ofNat 16 (bytesBelow pb 8)
      Stored st t sp (pushedBytes st.u pb st) ∧ t = { st with mem := t.mem, s := sp }) ∧
    Answers (.pshu pb) st (fun t =>
      let sp := st.u - BitVec.ofNat 16 (bytesBelow pb 8)
      Stored st t sp (pushedBytes st.s pb st) ∧ t = { st with mem := t.mem, u := sp })

/-- PULS and PULU (R323, R324): the selected registers from rising addresses; PULU of S arms NMI under
the wide set (R300, D9). -/
def Obligations.PullInstructions : Prop :=
  ∀ (st : State) (pb : Byte),
    Answers (.puls pb) st (fun t =>
      t = { pulledCommon st st.s pb with
            s := st.s + BitVec.ofNat 16 (bytesBelow pb 8)
            u := pulled16 st st.s pb 6 st.u }) ∧
    Answers (.pulu pb) st (fun t =>
      t = { pulledCommon st st.u pb with
            u := st.u + BitVec.ofNat 16 (bytesBelow pb 8)
            s := pulled16 st st.u pb 6 st.s
            nmiArmed := st.nmiArmed || (pb.getLsbD 6 && wide st) })

/-- A push to RAM and a later pull with the same postbyte give the selected registers back, whatever happened to the
registers in between, and move the stack pointer back (R320 to R324). -/
def Obligations.PushThenPull : Prop :=
  ∀ (st : State) (pb : Byte),
    Answers (.pshs pb) st (fun t =>
      ∀ h : State, AllRam st t.s (bytesBelow pb 8) → h.s = t.s → h.mem = t.mem → h.platform = t.platform →
        Answers (.puls pb) h (fun e =>
          e = { h with
                s := st.s
                cc := if pb.getLsbD 0 then st.cc else h.cc
                a := if pb.getLsbD 1 then st.a else h.a
                b := if pb.getLsbD 2 then st.b else h.b
                dp := if pb.getLsbD 3 then st.dp else h.dp
                x := if pb.getLsbD 4 then st.x else h.x
                y := if pb.getLsbD 5 then st.y else h.y
                u := if pb.getLsbD 6 then st.u else h.u
                pc := if pb.getLsbD 7 then st.pc else h.pc })) ∧
    Answers (.pshu pb) st (fun t =>
      ∀ h : State, AllRam st t.u (bytesBelow pb 8) → h.u = t.u → h.mem = t.mem → h.platform = t.platform →
        Answers (.pulu pb) h (fun e =>
          e = { h with
                u := st.u
                cc := if pb.getLsbD 0 then st.cc else h.cc
                a := if pb.getLsbD 1 then st.a else h.a
                b := if pb.getLsbD 2 then st.b else h.b
                dp := if pb.getLsbD 3 then st.dp else h.dp
                x := if pb.getLsbD 4 then st.x else h.x
                y := if pb.getLsbD 5 then st.y else h.y
                s := if pb.getLsbD 6 then st.s else h.s
                nmiArmed := h.nmiArmed || (pb.getLsbD 6 && wide h)
                pc := if pb.getLsbD 7 then st.pc else h.pc }))

/-- TFR (R326): the destination takes the source's value, every register that is not the destination, or half of it,
stays; memory and the rest stay; S as the destination arms NMI under the wide set (R300, D9). A pair of unlike size is
refused (R120). -/
def Obligations.TransferRegisters : Prop :=
  ∀ (st : State) (src dst : RegCode),
    (src.is16 = dst.is16 →
      Answers (.tfr src dst) st (fun t =>
        t.readCode dst = st.readCode src ∧
        (∀ c : RegCode, overlap c dst = false → t.readCode c = st.readCode c) ∧
        t.mem = st.mem ∧ t.run = st.run ∧ t.resetHalt = st.resetHalt ∧ t.inputs = st.inputs ∧ t.draws = st.draws ∧
        t.platform = st.platform ∧ t.busTime = st.busTime ∧
        t.nmiPending = st.nmiPending ∧ t.nmiArmed = (st.nmiArmed || (dst == .s && wide st)))) ∧
    (src.is16 ≠ dst.is16 → exec (.tfr src dst) st = .refused .invalidRegisterPair)

/-- EXG (R327): the two registers exchange their values; as for TFR otherwise. -/
def Obligations.ExchangeRegisters : Prop :=
  ∀ (st : State) (src dst : RegCode),
    (src.is16 = dst.is16 →
      Answers (.exg src dst) st (fun t =>
        t.readCode dst = st.readCode src ∧ t.readCode src = st.readCode dst ∧
        (∀ c : RegCode, overlap c src = false → overlap c dst = false → t.readCode c = st.readCode c) ∧
        t.mem = st.mem ∧ t.run = st.run ∧ t.resetHalt = st.resetHalt ∧ t.inputs = st.inputs ∧ t.draws = st.draws ∧
        t.platform = st.platform ∧ t.busTime = st.busTime ∧
        t.nmiPending = st.nmiPending ∧ t.nmiArmed = (st.nmiArmed || ((src == .s || dst == .s) && wide st)))) ∧
    (src.is16 ≠ dst.is16 → exec (.exg src dst) st = .refused .invalidRegisterPair)

/-! ### Branches, calls, jumps -/

/-- The sixteen branch conditions, short and long (R350 to R383). -/
def Obligations.Branches : Prop :=
  BranchPair .bra .lbra (fun _ => true) ∧
  BranchPair .brn .lbrn (fun _ => false) ∧
  BranchPair .bhi .lbhi (fun cc => decide (cc.c = false ∧ cc.z = false)) ∧
  BranchPair .bls .lbls (fun cc => decide (cc.c = true ∨ cc.z = true)) ∧
  BranchPair .bcc .lbcc (fun cc => decide (cc.c = false)) ∧
  BranchPair .bcs .lbcs (fun cc => decide (cc.c = true)) ∧
  BranchPair .bne .lbne (fun cc => decide (cc.z = false)) ∧
  BranchPair .beq .lbeq (fun cc => decide (cc.z = true)) ∧
  BranchPair .bvc .lbvc (fun cc => decide (cc.v = false)) ∧
  BranchPair .bvs .lbvs (fun cc => decide (cc.v = true)) ∧
  BranchPair .bpl .lbpl (fun cc => decide (cc.n = false)) ∧
  BranchPair .bmi .lbmi (fun cc => decide (cc.n = true)) ∧
  BranchPair .bge .lbge (fun cc => decide (cc.n = cc.v)) ∧
  BranchPair .blt .lblt (fun cc => decide (cc.n ≠ cc.v)) ∧
  BranchPair .bgt .lbgt (fun cc => decide (cc.z = false ∧ cc.n = cc.v)) ∧
  BranchPair .ble .lble (fun cc => decide (cc.z = true ∨ cc.n ≠ cc.v))

/-- After any compare the branches go by the order of the two values, unsigned and signed (R386). -/
def Obligations.CompareThenBranch : Prop :=
  ∀ st : State,
    (∀ m : Byte,
      Answers (.cmpaImm m) st (fun t => BranchesDecide t st.a.toNat m.toNat st.a.toInt m.toInt) ∧
      Answers (.cmpbImm m) st (fun t => BranchesDecide t st.b.toNat m.toNat st.b.toInt m.toInt)) ∧
    (∀ w : Word,
      Answers (.cmpdImm w) st (fun t => BranchesDecide t st.d.toNat w.toNat st.d.toInt w.toInt) ∧
      Answers (.cmpxImm w) st (fun t => BranchesDecide t st.x.toNat w.toNat st.x.toInt w.toInt) ∧
      Answers (.cmpyImm w) st (fun t => BranchesDecide t st.y.toNat w.toNat st.y.toInt w.toInt) ∧
      Answers (.cmpuImm w) st (fun t => BranchesDecide t st.u.toNat w.toNat st.u.toInt w.toInt) ∧
      Answers (.cmpsImm w) st (fun t => BranchesDecide t st.s.toNat w.toNat st.s.toInt w.toInt))

/-- BSR, LBSR, JSR, JMP, RTS (R384, R385, R404 to R406). -/
def Obligations.CallsAndJumps : Prop :=
  AddressForms .jsrDir .jsrIdx .jsrExt CallPost ∧
  AddressForms .jmpDir .jmpIdx .jmpExt (fun ea s t => t = { s with pc := ea }) ∧
  ∀ st : State,
    (∀ off : Byte, Answers (.bsr off) st (CallPost (displaced st.pc off.toInt) st)) ∧
    (∀ off : Word, Answers (.lbsr off) st (CallPost (displaced st.pc off.toInt) st)) ∧
    Answers .rts st (fun t => t = { st with pc := st.read16 st.s, s := st.s + 2#16 })

/-- A call with its stack in RAM returns: RTS on the stack as the call left it continues after the call, with S as it was at the call; an
indexed JSR has adjusted its pointer register before that (R384, R385, R405, R406). -/
def Obligations.CallThenReturn : Prop :=
  ∀ st : State,
    (∀ i : Instr,
      (∃ off, i = .bsr off) ∨ (∃ off, i = .lbsr off) ∨ (∃ lo, i = .jsrDir lo) ∨ (∃ a, i = .jsrExt a) →
      Answers i st (fun t =>
        ∀ h : State, AllRam st t.s 2 → h.s = t.s → h.mem = t.mem → h.platform = t.platform →
          exec .rts h = .next { h with pc := st.pc, s := st.s })) ∧
    (∀ m : Idx,
      Answers (.jsrIdx m) st (fun t =>
        ∀ h : State, AllRam st t.s 2 → h.s = t.s → h.mem = t.mem → h.platform = t.platform →
          exec .rts h = .next { h with pc := st.pc, s := (st.afterIndex m).s }))

/-! ### Condition code instructions, software interrupts, return, waits -/

/-- The bits of the CC byte, E in bit 7 down to C in bit 0, and back (R28). -/
def Obligations.ConditionCodeByte : Prop :=
  ∀ cc : CC,
    cc.toByte.toNat = 128 * cc.e.toNat + 64 * cc.f.toNat + 32 * cc.h.toNat + 16 * cc.i.toNat + 8 * cc.n.toNat +
      4 * cc.z.toNat + 2 * cc.v.toNat + cc.c.toNat ∧
    CC.ofByte cc.toByte = cc

/-- ANDCC, ORCC, NOP (R400, R401, R402). -/
def Obligations.ConditionCodeInstructions : Prop :=
  ∀ (st : State) (imm : Byte),
    Answers (.andcc imm) st (fun t =>
      t = { st with cc := t.cc } ∧ t.cc.toByte = st.cc.toByte &&& imm) ∧
    Answers (.orcc imm) st (fun t =>
      t = { st with cc := t.cc } ∧ t.cc.toByte = st.cc.toByte ||| imm) ∧
    Answers .nop st (fun t => t = st)

/-- SWI, SWI2, SWI3 (R407 to R409, R431): the whole state is stacked with E set; SWI alone sets I and F. -/
def Obligations.SoftwareInterrupts : Prop :=
  ∀ st : State,
    Answers .swi st (EntirePost true true 0xFFFA#16 st) ∧
    Answers .swi2 st (EntirePost false false 0xFFF4#16 st) ∧
    Answers .swi3 st (EntirePost false false 0xFFF2#16 st)

/-- RTI (R410): the E bit of the CC pulled tells what else is pulled. -/
def Obligations.ReturnFromInterrupt : Prop :=
  ∀ st : State,
    ((st.read8 st.s).getLsbD 7 = true →
      Answers .rti st (fun t =>
        t = { st with
              cc := CC.ofByte (st.read8 st.s)
              a := st.read8 (st.s + 1#16)
              b := st.read8 (st.s + 2#16)
              dp := st.read8 (st.s + 3#16)
              x := st.read16 (st.s + 4#16)
              y := st.read16 (st.s + 6#16)
              u := st.read16 (st.s + 8#16)
              pc := st.read16 (st.s + 10#16)
              s := st.s + 12#16 })) ∧
    ((st.read8 st.s).getLsbD 7 = false →
      Answers .rti st (fun t =>
        t = { st with
              cc := CC.ofByte (st.read8 st.s)
              pc := st.read16 (st.s + 1#16)
              s := st.s + 3#16 }))

/-- Every exception stacked in RAM returns: RTI on the stack as the entry left it gives back PC, S, CC with E as the entry set it,
and, after an entire stacking, A, B, DP, X, Y, U (R410, R440, R442, R446). -/
def Obligations.EntryThenReturn : Prop :=
  ∀ (st : State) (ev : Event) (h : State),
    AllRam st (st.takeException ev).s (if ev = .firq then 3 else 12) →
    h.s = (st.takeException ev).s → h.mem = (st.takeException ev).mem → h.platform = st.platform →
    Answers .rti h (fun t =>
      t = { h with
            pc := st.pc
            s := st.s
            cc := { st.cc with e := decide (ev ≠ .firq) }
            a := if ev = .firq then h.a else st.a
            b := if ev = .firq then h.b else st.b
            dp := if ev = .firq then h.dp else st.dp
            x := if ev = .firq then h.x else st.x
            y := if ev = .firq then h.y else st.y
            u := if ev = .firq then h.u else st.u })

/-- SYNC and CWAI (R403, R411): SYNC only waits; CWAI writes CC, stacks the whole state with E set, then waits. -/
def Obligations.WaitInstructions : Prop :=
  ∀ (st : State) (imm : Byte),
    Answers .sync st (fun t => t = { st with run := .sync }) ∧
    Answers (.cwai imm) st (fun t =>
      let cc1 := CC.ofByte (st.cc.toByte &&& imm)
      Stored st t (st.s - 12#16) (entireFrame { st with cc := cc1 }) ∧
      t = { st with mem := t.mem, s := st.s - 12#16, cc := { cc1 with e := true }, run := .cwaiWait })

/-! ### Input lines -/

/-- RESET low, in any run state: the processor enters InReset and nothing else happens; it stays so while the line
is low (R447, R490). -/
def Obligations.ResetHeld : Prop :=
  ∀ st : State, st.sample.reset = true → 
    step st = .next { st with run := .inReset, inputs := st.inputs.tail, busTime := st.busTime + 1 }

/-- RESET released (R44, R490): DP, I, F, the two NMI latches, PC and the run state take their stated values and no
byte of memory changes; a halt that begins here is one in RESET (R460). -/
def Obligations.ResetReleased : Prop :=
  ∀ st : State, st.run = .inReset → st.sample.reset = false →
    ∃ t : State, step st = .next t ∧
      t.dp = 0x00#8 ∧ t.cc.i = true ∧ t.cc.f = true ∧ t.nmiArmed = false ∧ t.nmiPending = false ∧
      t.pc.toNat = 256 * (t.read8 0xFFFE#16).toNat + (t.read8 0xFFFF#16).toNat ∧
      t.run = (if st.sample.halt then .halted else .running) ∧ t.resetHalt = st.sample.halt ∧
      t.mem = st.mem ∧ t.platform = st.platform ∧ t.busTime = st.busTime + 1 ∧ t.inputs = st.inputs.tail

/-- HALT low at a boundary (R447, R460): the processor halts without loss of data; an edge of an armed NMI is
latched. -/
def Obligations.HaltAtBoundary : Prop :=
  ∀ st : State, AtBoundary st → st.sample.reset = false → st.sample.halt = true →
    ∃ t : State, step st = .next t ∧
      t = { st with
            run := .halted
            inputs := st.inputs.tail
            busTime := st.busTime + 1
            nmiPending := t.nmiPending } ∧
      (st.nmiArmed = true → t.nmiPending = (st.nmiPending || st.sample.nmiEdge)) ∧
      (st.sample.nmiEdge = false → t.nmiPending = st.nmiPending)

/-- NMI at a boundary (R441, R447): taken when armed and latched, before FIRQ and IRQ whatever the masks. -/
def Obligations.NmiAtBoundary : Prop :=
  ∀ st : State, AtBoundary st → Free st.sample → NmiRequested st st.sample →
    ∃ t : State, step st = .next t ∧ EntirePost true true 0xFFFC#16 (interrupted st false) t

/-- FIRQ at a boundary (R442, R447): taken when low and F is clear, unless an NMI is; only PC and CC are stacked. -/
def Obligations.FirqAtBoundary : Prop :=
  ∀ st : State, AtBoundary st → Free st.sample → ¬NmiRequested st st.sample → FirqRequested st st.sample →
    ∃ t : State, step st = .next t ∧ SubsetPost (interrupted st (latchAfter st st.sample)) t

/-- IRQ at a boundary (R443, R447): taken when low and I is clear, unless an NMI or a FIRQ is; F stays. -/
def Obligations.IrqAtBoundary : Prop :=
  ∀ st : State, AtBoundary st → Free st.sample → ¬NmiRequested st st.sample → ¬FirqRequested st st.sample →
    IrqRequested st st.sample →
    ∃ t : State, step st = .next t ∧
      EntirePost true false 0xFFF8#16 (interrupted st (latchAfter st st.sample)) t

/-- The Sync state ends on any interrupt line, masked or not (R411, R448): a request that is not masked is taken as
at a boundary, a masked one lets execution go on with nothing stacked; without a line the wait goes on. A pulse that
may be too short to be taken ends the wait too, and then either of the two follows (D18). -/
def Obligations.SyncWakes : Prop :=
  ∀ st : State, st.run = .sync → Free st.sample →
    (st.sample.firqBrief = false → st.sample.irqBrief = false →
      (NmiRequested st st.sample →
        ∃ t : State, step st = .next t ∧ EntirePost true true 0xFFFC#16 (interrupted st false) t) ∧
      (¬NmiRequested st st.sample → FirqRequested st st.sample →
        ∃ t : State, step st = .next t ∧ SubsetPost (interrupted st (latchAfter st st.sample)) t) ∧
      (¬NmiRequested st st.sample → ¬FirqRequested st st.sample → IrqRequested st st.sample →
        ∃ t : State, step st = .next t ∧
          EntirePost true false 0xFFF8#16 (interrupted st (latchAfter st st.sample)) t) ∧
      (¬NmiRequested st st.sample → ¬FirqRequested st st.sample → ¬IrqRequested st st.sample →
        st.sample.firq = true ∨ st.sample.irq = true →
        step st = .next (interrupted st (latchAfter st st.sample)))) ∧
    (st.sample.firqBrief = true ∨ st.sample.irqBrief = true → ¬NmiRequested st st.sample →
      st.sample.firq = true ∨ st.sample.irq = true →
      ∃ (t : State) (d : Nat), step st = .next t ∧
        let base : State := { interrupted st (latchAfter st st.sample) with draws := d }
        ((FirqRequested st st.sample ∧ SubsetPost base t) ∨
          (IrqRequested st st.sample ∧ EntirePost true false 0xFFF8#16 base t) ∨ t = base)) ∧
    (st.nmiPending = false → st.sample.nmiEdge = false → st.sample.firq = false → st.sample.irq = false →
      step st = .next { st with inputs := st.inputs.tail, busTime := st.busTime + 1 })

/-- The CwaiWait state ends only on a request that is not masked, and nothing more is stacked (R403, R449). -/
def Obligations.CwaiWakes : Prop :=
  ∀ st : State, st.run = .cwaiWait → Free st.sample →
    (NmiRequested st st.sample →
      step st = .next { interrupted st false with
        cc := { st.cc with i := true, f := true }, pc := (interrupted st false).read16 0xFFFC#16 }) ∧
    (¬NmiRequested st st.sample → FirqRequested st st.sample →
      step st = .next { interrupted st (latchAfter st st.sample) with
        cc := { st.cc with i := true, f := true }, pc := (interrupted st false).read16 0xFFF6#16 }) ∧
    (¬NmiRequested st st.sample → ¬FirqRequested st st.sample → IrqRequested st st.sample →
      step st = .next { interrupted st (latchAfter st st.sample) with
        cc := { st.cc with i := true }, pc := (interrupted st false).read16 0xFFF8#16 }) ∧
    (¬NmiRequested st st.sample → ¬FirqRequested st st.sample → ¬IrqRequested st st.sample →
      step st = .next { st with
        inputs := st.inputs.tail
        busTime := st.busTime + 1
        nmiPending := latchAfter st st.sample })

/-! ### Decoding and encoding -/

/-- Decoding the encoding of a well-formed instruction gives it back, whatever bytes follow. -/
def Obligations.DecodeEncode : Prop :=
  ∀ (i : Instr) (rest : List Byte), i.wf = true → decode (encode i ++ rest) = .ok (i, rest)

/-- What the decoder reads is well formed, and it reads the bytes at the head of the list and no others: one byte at
the least (R127, R120). -/
def Obligations.DecodeReadsWellFormed : Prop :=
  ∀ (bytes rest : List Byte) (i : Instr), decode bytes = .ok (i, rest) →
    i.wf = true ∧ ∃ head : List Byte, bytes = head ++ rest ∧ 1 ≤ head.length ∧
      ∀ other : List Byte, decode (head ++ other) = .ok (i, other)

/-- Prebytes after the first are ignored, and the first one selects the page (R92). -/
def Obligations.RepeatedPrebytes : Prop :=
  ∀ (first : Byte) (more : List Byte) (op : Byte) (rest : List Byte),
    (first = 0x10#8 ∨ first = 0x11#8) → (∀ p ∈ more, p = 0x10#8 ∨ p = 0x11#8) → op ≠ 0x10#8 → op ≠ 0x11#8 →
    decode (first :: (more ++ op :: rest)) = decode (first :: op :: rest)

/-- The indexed postbytes that are refused are those of R116: bit 7 set and the mode 7, A or E, or F but for $9F, or
an increment or decrement by one with indirection. -/
def Obligations.UndefinedPostbytes : Prop :=
  ∀ (pb b1 b2 : Byte) (rest : List Byte),
    decodeIdx (pb :: b1 :: b2 :: rest) = .error .undefinedPostbyte ↔
      128 ≤ pb.toNat ∧
        (pb.toNat % 16 = 7 ∨ pb.toNat % 16 = 10 ∨ pb.toNat % 16 = 14 ∨ (pb.toNat % 16 = 15 ∧ pb.toNat ≠ 0x9F) ∨
          (16 ≤ pb.toNat % 32 ∧ (pb.toNat % 16 = 0 ∨ pb.toNat % 16 = 2)))

/-- Words written out from the opcode maps decode to their instructions, one or more of each family; unused opcodes
and undefined register pairs are refused (R122 to R126, R120). -/
def Obligations.DecodedWords : Prop :=
  decode [0x86#8, 0x20#8] = .ok (.ldaImm 0x20#8, []) ∧
  decode [0xA6#8, 0x98#8, 0x10#8] = .ok (.ldaIdx (.off8 .x true 0x10#8), []) ∧
  decode [0x7A#8, 0xA0#8, 0x00#8] = .ok (.decExt 0xA000#16, []) ∧
  decode [0xC3#8, 0x12#8, 0x34#8] = .ok (.adddImm 0x1234#16, []) ∧
  decode [0x10#8, 0x8E#8, 0x12#8, 0x34#8] = .ok (.ldyImm 0x1234#16, []) ∧
  decode [0x11#8, 0x83#8, 0x12#8, 0x34#8] = .ok (.cmpuImm 0x1234#16, []) ∧
  decode [0x34#8, 0x36#8] = .ok (.pshs 0x36#8, []) ∧
  decode [0x1F#8, 0x8B#8] = .ok (.tfr .a .dp, []) ∧
  decode [0x10#8, 0x27#8, 0x00#8, 0x10#8] = .ok (.lbeq 0x0010#16, []) ∧
  decode [0x11#8, 0x3F#8] = .ok (.swi3, []) ∧
  decode [0x01#8] = .error .unusedOpcode ∧
  decode [0x10#8, 0x86#8] = .error .unusedOpcode ∧
  decode [0x1F#8, 0x81#8] = .error .invalidRegisterPair

/-! ### The step and the whole machine -/

/-- A step with no line active but masked requests runs the instruction that the bytes at PC decode to, with PC past
its last byte (R15, R16, R447 step 6). -/
def Obligations.StepRunsDecodedInstruction : Prop :=
  ∀ (st : State) (i : Instr) (rest : List Byte),
    AtBoundary st → Free st.sample →
    ¬NmiRequested st st.sample → ¬FirqRequested st st.sample → ¬IrqRequested st st.sample →
    decode (interrupted st (latchAfter st st.sample)).fetchBytes = .ok (i, rest) →
    step st = exec i { interrupted st (latchAfter st st.sample) with
      pc := st.pc +
        BitVec.ofNat 16 ((interrupted st (latchAfter st st.sample)).fetchBytes.length - rest.length) }

/-- The same from RAM or ROM: where the encoding of a well-formed instruction lies at PC, wrapping round the address
space, a step runs that instruction with PC past its last byte. -/
def Obligations.StepRunsEncodedInstruction : Prop :=
  ∀ (st : State) (i : Instr),
    i.wf = true → LiesAt st st.pc (encode i) →
    AtBoundary st → Free st.sample →
    ¬NmiRequested st st.sample → ¬FirqRequested st st.sample → ¬IrqRequested st st.sample →
    step st = exec i { interrupted st (latchAfter st st.sample) with
      pc := st.pc + BitVec.ofNat 16 (encode i).length }

/-- Every well-formed instruction completes, in every state (R430). -/
def Obligations.EveryInstructionCompletes : Prop :=
  ∀ (i : Instr) (st : State), i.wf = true → ∃ t : State, exec i st = .next t

/-- An instruction stores to its own bytes and nowhere else; one that stores nothing leaves all of memory. The range is
that of the writes; ROM and devices in it answer as before (R62). -/
def Obligations.InstructionsWriteOnlyTheirBytes : Prop :=
  ∀ (i : Instr) (st t : State), exec i st = .next t →
    UnchangedOutside st t (storedRange i st).1 (storedRange i st).2

/-- Only the instructions that write CC as a whole, and the software interrupts, change E, F or I; only additions,
the instructions that leave it undefined and those that write CC as a whole change H (R33 to R37). Three clauses are the
model's choice: that a pull writes CC exactly where bit 0 of its postbyte is set is log entry 11 (PRESUMED, GK1), what
SWI, SWI2 and SWI3 do to E, F and I is log entry 14 (PRESUMED, GK6, GK17), and what CWAI does to them is log entry 15
(PRESUMED, GK7). -/
def Obligations.MaskAndHalfCarryFrame : Prop :=
  ∀ (i : Instr) (st t : State), exec i st = .next t →
    (writesMasks i = false → t.cc.e = st.cc.e ∧ t.cc.f = st.cc.f ∧ t.cc.i = st.cc.i) ∧
    (writesH i = false → t.cc.h = st.cc.h)

/-- Which instructions change DP, PC, the run state and the NMI arming latch; none touches the pending latch, the
samples of the lines, the platform or the time (R25, R27, R39, R42). Which pulls write DP, PC and S goes by bits 3, 7
and 6 of the postbyte, which is the model's choice (log entry 11, PRESUMED, GK1); so are what arms NMI (log entry 7,
PRESUMED as the default), that CWAI waits after its stacking (log entry 15, PRESUMED, GK7), and the model's own fields,
the platform, the samples, the time and the reset halt (log entries 35, 5 and 26). -/
def Obligations.ControlRegisterFrame : Prop :=
  ∀ (i : Instr) (st t : State), exec i st = .next t →
    (writesDP i = false → t.dp = st.dp) ∧
    (writesPC i = false → t.pc = st.pc) ∧
    ((∀ imm, i ≠ .cwai imm) → i ≠ .sync → t.run = st.run) ∧
    t.nmiArmed = (st.nmiArmed || loadsS i || (assignsS i && wide st)) ∧
    t.nmiPending = st.nmiPending ∧ t.inputs = st.inputs ∧
    t.platform = st.platform ∧ t.busTime = st.busTime ∧ t.resetHalt = st.resetHalt

/-- Nothing but RESET disarms NMI (R39). -/
def Obligations.OnlyResetDisarmsNmi : Prop :=
  ∀ st t : State, step st = .next t → st.nmiArmed = true → t.nmiArmed = false →
    st.run = .inReset ∧ st.sample.reset = false

/-- Memory stays in its canonical form through every step. -/
def Obligations.StepKeepsMemoryCanonical : Prop :=
  ∀ st t : State, st.wf = true → step st = .next t → t.wf = true

/-- No step changes the platform, the time moves on by one, and a byte of memory where no RAM answers keeps its value.
All three are the model's choice: log entry 35 for the platform's memory and the count of steps, log entry 7 for
nmi_arm_set. D1 leaves the behaviour of memory open as a parameter, and R5, R62 and R74 say only that it is the
platform's. -/
def Obligations.StepKeepsPlatform : Prop :=
  ∀ st t : State, step st = .next t →
    t.platform = st.platform ∧ t.busTime = st.busTime + 1 ∧
    ∀ q : Word, st.kindAt q ≠ .ram → Memory.read t.mem q = Memory.read st.mem q

/-- Memory is in its canonical form right after reset, DP is clear, I and F are set, NMI is disarmed and not pending
(R44); the first step's PC is the word at the RESET vector. The empty memory is the model's choice (log entry 1), and so
is `Platform.standard`: RAM everywhere is the default of D1 (log entry 35, DESIGN CHOICE) and the wide nmi_arm_set the
default of D9 (log entry 7, PRESUMED). -/
def Obligations.ResetState : Prop :=
  State.reset.wf = true ∧ State.reset.dp = 0x00#8 ∧ State.reset.cc.i = true ∧ State.reset.cc.f = true ∧
  State.reset.nmiArmed = false ∧ State.reset.nmiPending = false ∧ State.reset.run = .running ∧ State.reset.platform = Platform.standard ∧
  State.reset.pc = State.reset.read16 0xFFFE#16
end

