-- ==== Sys2Proof/Laws/Memory.lean ====
section
/-! SUPPORT. The laws of memory: a read after a write, writes at other addresses, and that every operation keeps
the canonical form. -/

namespace Sys2Proof.Machine

/-! ### Reading back -/

theorem Memory.get_erase (m : Memory) (k a : Nat) :
    Memory.get (Memory.erase m k) a = if k = a then Memory.unlisted else Memory.get m a := by
  induction m with
  | nil => simp [Memory.erase, Memory.get]
  | cons cell rest ih =>
    obtain ⟨j, v⟩ := cell
    by_cases hj : j = k <;> by_cases hk : k = a <;> simp_all [Memory.erase, Memory.get]

/-- An erased cell is in no place of the list. -/
theorem Memory.erase_ne (a : Nat) : ∀ (m : Memory), ∀ c ∈ Memory.erase m a, c.1 ≠ a
  | [], c, hc => by simp [Memory.erase] at hc
  | (k, v) :: rest, c, hc => by
    unfold Memory.erase at hc
    split at hc
    · exact Memory.erase_ne a rest c hc
    · next hk =>
      rcases List.mem_cons.mp hc with rfl | hc
      · exact hk
      · exact Memory.erase_ne a rest c hc

theorem Memory.get_insert (k a : Nat) (w : Byte) : ∀ m : Memory, (∀ c ∈ m, c.1 ≠ k) →
    Memory.get (Memory.insert m k w) a = if k = a then w else Memory.get m a
  | [], _ => rfl
  | (j, v) :: rest, hm => by
    have hj : j ≠ k := hm (j, v) (by simp)
    have ih := Memory.get_insert k a w rest (fun c hc => hm c (by simp [hc]))
    unfold Memory.insert
    split
    · rfl
    · simp only [Memory.get, ih]
      by_cases ha : j = a
      · simp [ha, show k ≠ a from fun h => hj (ha.trans h.symm)]
      · simp [ha]

/-- Setting one cell and reading any cell. -/
theorem Memory.get_set (m : Memory) (k a : Nat) (w : Byte) :
    Memory.get (Memory.set m k w) a = if k = a then w else Memory.get m a := by
  unfold Memory.set
  split
  · next h => rw [Memory.get_erase, h]
  · rw [Memory.get_insert k a w _ (Memory.erase_ne k m), Memory.get_erase]
    split <;> rfl

/-- A read after a write: the byte written at its own address, the byte of before at every other. -/
theorem Memory.read_write (m : Memory) (p q : Word) (v : Byte) :
    Memory.read (Memory.write m p v) q = if p = q then v else Memory.read m q := by
  simp [Memory.read, Memory.write, Memory.get_set, BitVec.toNat_inj]

@[simp] theorem Memory.read_write_same (m : Memory) (p : Word) (v : Byte) :
    Memory.read (Memory.write m p v) p = v := by
  simp [Memory.read_write]

theorem Memory.read_write_ne (m : Memory) {p q : Word} (v : Byte) (h : q ≠ p) :
    Memory.read (Memory.write m p v) q = Memory.read m q := by
  simp [Memory.read_write, Ne.symm h]

/-! ### The canonical form -/

theorem Memory.wfFrom_mono {lo hi : Nat} (h : lo ≤ hi) :
    ∀ {m : Memory}, Memory.wfFrom hi m = true → Memory.wfFrom lo m = true
  | [], _ => rfl
  | (k, v) :: rest, hm => by
    simp only [Memory.wfFrom, Bool.and_eq_true, decide_eq_true_eq] at hm ⊢
    exact ⟨⟨⟨h.trans hm.1.1.1, hm.1.1.2⟩, hm.1.2⟩, hm.2⟩

theorem Memory.wfFrom_erase (a : Nat) :
    ∀ (m : Memory) (lo : Nat), Memory.wfFrom lo m = true → Memory.wfFrom lo (Memory.erase m a) = true
  | [], _, _ => rfl
  | (k, v) :: rest, lo, hm => by
    simp only [Memory.wfFrom, Bool.and_eq_true, decide_eq_true_eq] at hm
    have hrest := Memory.wfFrom_erase a rest (k + 1) hm.2
    unfold Memory.erase
    split
    · exact Memory.wfFrom_mono (by omega) hrest
    · simp only [Memory.wfFrom, Bool.and_eq_true, decide_eq_true_eq]
      exact ⟨hm.1, hrest⟩

theorem Memory.wfFrom_insert (a : Nat) (w : Byte) (ha : a < 65536) (hw : w ≠ Memory.unlisted) :
    ∀ (m : Memory) (lo : Nat), lo ≤ a → (∀ c ∈ m, c.1 ≠ a) → Memory.wfFrom lo m = true →
      Memory.wfFrom lo (Memory.insert m a w) = true
  | [], lo, hlo, _, _ => by simp [Memory.insert, Memory.wfFrom, hlo, ha, hw]
  | (k, v) :: rest, lo, hlo, hne, hm => by
    have hk : k ≠ a := hne (k, v) (by simp)
    simp only [Memory.wfFrom, Bool.and_eq_true, decide_eq_true_eq] at hm
    unfold Memory.insert
    split
    · next hlt =>
      simp only [Memory.wfFrom, Bool.and_eq_true, decide_eq_true_eq]
      refine ⟨⟨⟨hlo, ha⟩, by simpa using hw⟩, ⟨⟨by omega, hm.1.1.2⟩, hm.1.2⟩, hm.2⟩
    · next hlt =>
      have hrest := Memory.wfFrom_insert a w ha hw rest (k + 1) (by omega)
        (fun c hc => hne c (by simp [hc])) hm.2
      simp only [Memory.wfFrom, Bool.and_eq_true, decide_eq_true_eq]
      exact ⟨hm.1, hrest⟩

/-- Setting a cell inside the address space keeps the canonical form. -/
theorem Memory.wf_set (m : Memory) (a : Nat) (w : Byte) (ha : a < 65536) (hm : Memory.wf m = true) :
    Memory.wf (Memory.set m a w) = true := by
  unfold Memory.set
  split
  · exact Memory.wfFrom_erase a m 0 hm
  · next hw =>
    exact Memory.wfFrom_insert a w ha hw _ 0 (Nat.zero_le a) (Memory.erase_ne a m)
      (Memory.wfFrom_erase a m 0 hm)

/-- A write keeps the canonical form. -/
@[simp] theorem Memory.wf_write (m : Memory) (p : Word) (v : Byte) (hm : Memory.wf m = true) :
    Memory.wf (Memory.write m p v) = true := Memory.wf_set m p.toNat v p.isLt hm

/-- Writing a list of bytes keeps the canonical form. -/
theorem Memory.wf_writeAll : ∀ (bytes : List Byte) (m : Memory) (p : Word), Memory.wf m = true →
    Memory.wf (Memory.writeAll m p bytes) = true
  | [], _, _, hm => hm
  | v :: rest, m, p, hm => Memory.wf_writeAll rest _ _ (Memory.wf_write m p v hm)

/-- The memory right after reset is in canonical form. -/
theorem Memory.wf_reset : Memory.wf State.reset.mem = true := rfl

/-- A canonical list has no cell below its first address. -/
theorem Memory.get_below (lo : Nat) :
    ∀ (m : Memory) (a : Nat), Memory.wfFrom lo m = true → a < lo → Memory.get m a = Memory.unlisted
  | [], _, _, _ => rfl
  | (k, v) :: rest, a, hm, ha => by
    simp only [Memory.wfFrom, Bool.and_eq_true, decide_eq_true_eq] at hm
    have hk : k ≠ a := by omega
    simp [Memory.get, hk, Memory.get_below (k + 1) rest a hm.2 (by omega)]

end Sys2Proof.Machine
end

