-- ==== Sys2Proof/Laws/State.lean ====
section
/-! SUPPORT. What each named update does to each field of the state: one simp lemma per field per update. -/

namespace Sys2Proof.Machine

/-! ### Writes to memory -/

@[simp] theorem State.write8_a (st : State) (p : Word) (v : Byte) : (st.write8 p v).a = st.a := rfl
@[simp] theorem State.write8_b (st : State) (p : Word) (v : Byte) : (st.write8 p v).b = st.b := rfl
@[simp] theorem State.write8_x (st : State) (p : Word) (v : Byte) : (st.write8 p v).x = st.x := rfl
@[simp] theorem State.write8_y (st : State) (p : Word) (v : Byte) : (st.write8 p v).y = st.y := rfl
@[simp] theorem State.write8_u (st : State) (p : Word) (v : Byte) : (st.write8 p v).u = st.u := rfl
@[simp] theorem State.write8_s (st : State) (p : Word) (v : Byte) : (st.write8 p v).s = st.s := rfl
@[simp] theorem State.write8_pc (st : State) (p : Word) (v : Byte) : (st.write8 p v).pc = st.pc := rfl
@[simp] theorem State.write8_dp (st : State) (p : Word) (v : Byte) : (st.write8 p v).dp = st.dp := rfl
@[simp] theorem State.write8_cc (st : State) (p : Word) (v : Byte) : (st.write8 p v).cc = st.cc := rfl
@[simp] theorem State.write8_nmiArmed (st : State) (p : Word) (v : Byte) : (st.write8 p v).nmiArmed = st.nmiArmed :=
  rfl
@[simp] theorem State.write8_nmiPending (st : State) (p : Word) (v : Byte) : (st.write8 p v).nmiPending =
    st.nmiPending := rfl
@[simp] theorem State.write8_run (st : State) (p : Word) (v : Byte) : (st.write8 p v).run = st.run := rfl
@[simp] theorem State.write8_resetHalt (st : State) (p : Word) (v : Byte) : (st.write8 p v).resetHalt = st.resetHalt :=
  rfl
@[simp] theorem State.write8_mem (st : State) (p : Word) (v : Byte) : (st.write8 p v).mem =
    st.mem.store st.platform p v := rfl
@[simp] theorem State.write8_platform (st : State) (p : Word) (v : Byte) : (st.write8 p v).platform = st.platform :=
  rfl
@[simp] theorem State.write8_busTime (st : State) (p : Word) (v : Byte) : (st.write8 p v).busTime = st.busTime := rfl
@[simp] theorem State.write8_inputs (st : State) (p : Word) (v : Byte) : (st.write8 p v).inputs = st.inputs := rfl
@[simp] theorem State.write8_draws (st : State) (p : Word) (v : Byte) : (st.write8 p v).draws = st.draws := rfl

@[simp] theorem State.write16_a (st : State) (p : Word) (v : Word) : (st.write16 p v).a = st.a := rfl
@[simp] theorem State.write16_b (st : State) (p : Word) (v : Word) : (st.write16 p v).b = st.b := rfl
@[simp] theorem State.write16_x (st : State) (p : Word) (v : Word) : (st.write16 p v).x = st.x := rfl
@[simp] theorem State.write16_y (st : State) (p : Word) (v : Word) : (st.write16 p v).y = st.y := rfl
@[simp] theorem State.write16_u (st : State) (p : Word) (v : Word) : (st.write16 p v).u = st.u := rfl
@[simp] theorem State.write16_s (st : State) (p : Word) (v : Word) : (st.write16 p v).s = st.s := rfl
@[simp] theorem State.write16_pc (st : State) (p : Word) (v : Word) : (st.write16 p v).pc = st.pc := rfl
@[simp] theorem State.write16_dp (st : State) (p : Word) (v : Word) : (st.write16 p v).dp = st.dp := rfl
@[simp] theorem State.write16_cc (st : State) (p : Word) (v : Word) : (st.write16 p v).cc = st.cc := rfl
@[simp] theorem State.write16_nmiArmed (st : State) (p : Word) (v : Word) : (st.write16 p v).nmiArmed = st.nmiArmed :=
  rfl
@[simp] theorem State.write16_nmiPending (st : State) (p : Word) (v : Word) : (st.write16 p v).nmiPending =
    st.nmiPending := rfl
@[simp] theorem State.write16_run (st : State) (p : Word) (v : Word) : (st.write16 p v).run = st.run := rfl
@[simp] theorem State.write16_resetHalt (st : State) (p : Word) (v : Word) : (st.write16 p v).resetHalt =
    st.resetHalt := rfl
@[simp] theorem State.write16_mem (st : State) (p : Word) (v : Word) : (st.write16 p v).mem =
    (st.mem.store st.platform p (hiByte v)).store st.platform (p + 1#16) (loByte v) := rfl
@[simp] theorem State.write16_platform (st : State) (p : Word) (v : Word) : (st.write16 p v).platform = st.platform :=
  rfl
@[simp] theorem State.write16_busTime (st : State) (p : Word) (v : Word) : (st.write16 p v).busTime = st.busTime :=
  rfl
@[simp] theorem State.write16_inputs (st : State) (p : Word) (v : Word) : (st.write16 p v).inputs = st.inputs := rfl
@[simp] theorem State.write16_draws (st : State) (p : Word) (v : Word) : (st.write16 p v).draws = st.draws := rfl

@[simp] theorem State.write8_kindAt (st : State) (p : Word) (v : Byte) (q : Word) : (st.write8 p v).kindAt q =
    st.kindAt q := rfl
@[simp] theorem State.write16_kindAt (st : State) (p : Word) (v : Word) (q : Word) : (st.write16 p v).kindAt q =
    st.kindAt q := rfl
@[simp] theorem State.push8_kindAt (st : State) (k : Stack) (v : Byte) (q : Word) : (st.push8 k v).kindAt q =
    st.kindAt q := by cases k <;> rfl
@[simp] theorem State.push16_kindAt (st : State) (k : Stack) (v : Word) (q : Word) : (st.push16 k v).kindAt q =
    st.kindAt q := by cases k <;> rfl

/-! ### Free bits -/

@[simp] theorem State.undefH_a (st : State) : (st.undefH).a = st.a := rfl
@[simp] theorem State.undefH_b (st : State) : (st.undefH).b = st.b := rfl
@[simp] theorem State.undefH_x (st : State) : (st.undefH).x = st.x := rfl
@[simp] theorem State.undefH_y (st : State) : (st.undefH).y = st.y := rfl
@[simp] theorem State.undefH_u (st : State) : (st.undefH).u = st.u := rfl
@[simp] theorem State.undefH_s (st : State) : (st.undefH).s = st.s := rfl
@[simp] theorem State.undefH_pc (st : State) : (st.undefH).pc = st.pc := rfl
@[simp] theorem State.undefH_dp (st : State) : (st.undefH).dp = st.dp := rfl
@[simp] theorem State.undefH_cc (st : State) : (st.undefH).cc = { st.cc with h := Config.undefBit st.draws } := rfl
@[simp] theorem State.undefH_nmiArmed (st : State) : (st.undefH).nmiArmed = st.nmiArmed := rfl
@[simp] theorem State.undefH_nmiPending (st : State) : (st.undefH).nmiPending = st.nmiPending := rfl
@[simp] theorem State.undefH_run (st : State) : (st.undefH).run = st.run := rfl
@[simp] theorem State.undefH_resetHalt (st : State) : (st.undefH).resetHalt = st.resetHalt := rfl
@[simp] theorem State.undefH_mem (st : State) : (st.undefH).mem = st.mem := rfl
@[simp] theorem State.undefH_platform (st : State) : (st.undefH).platform = st.platform := rfl
@[simp] theorem State.undefH_busTime (st : State) : (st.undefH).busTime = st.busTime := rfl
@[simp] theorem State.undefH_inputs (st : State) : (st.undefH).inputs = st.inputs := rfl
@[simp] theorem State.undefH_draws (st : State) : (st.undefH).draws = st.draws + 1 := rfl

@[simp] theorem State.undefV_a (st : State) : (st.undefV).a = st.a := rfl
@[simp] theorem State.undefV_b (st : State) : (st.undefV).b = st.b := rfl
@[simp] theorem State.undefV_x (st : State) : (st.undefV).x = st.x := rfl
@[simp] theorem State.undefV_y (st : State) : (st.undefV).y = st.y := rfl
@[simp] theorem State.undefV_u (st : State) : (st.undefV).u = st.u := rfl
@[simp] theorem State.undefV_s (st : State) : (st.undefV).s = st.s := rfl
@[simp] theorem State.undefV_pc (st : State) : (st.undefV).pc = st.pc := rfl
@[simp] theorem State.undefV_dp (st : State) : (st.undefV).dp = st.dp := rfl
@[simp] theorem State.undefV_cc (st : State) : (st.undefV).cc = { st.cc with v := Config.undefBit st.draws } := rfl
@[simp] theorem State.undefV_nmiArmed (st : State) : (st.undefV).nmiArmed = st.nmiArmed := rfl
@[simp] theorem State.undefV_nmiPending (st : State) : (st.undefV).nmiPending = st.nmiPending := rfl
@[simp] theorem State.undefV_run (st : State) : (st.undefV).run = st.run := rfl
@[simp] theorem State.undefV_resetHalt (st : State) : (st.undefV).resetHalt = st.resetHalt := rfl
@[simp] theorem State.undefV_mem (st : State) : (st.undefV).mem = st.mem := rfl
@[simp] theorem State.undefV_platform (st : State) : (st.undefV).platform = st.platform := rfl
@[simp] theorem State.undefV_busTime (st : State) : (st.undefV).busTime = st.busTime := rfl
@[simp] theorem State.undefV_inputs (st : State) : (st.undefV).inputs = st.inputs := rfl
@[simp] theorem State.undefV_draws (st : State) : (st.undefV).draws = st.draws + 1 := rfl

/-! ### Registers -/

@[simp] theorem State.setAcc_x (st : State) (r : Acc) (v : Byte) : (st.setAcc r v).x = st.x := by cases r <;> rfl
@[simp] theorem State.setAcc_y (st : State) (r : Acc) (v : Byte) : (st.setAcc r v).y = st.y := by cases r <;> rfl
@[simp] theorem State.setAcc_u (st : State) (r : Acc) (v : Byte) : (st.setAcc r v).u = st.u := by cases r <;> rfl
@[simp] theorem State.setAcc_s (st : State) (r : Acc) (v : Byte) : (st.setAcc r v).s = st.s := by cases r <;> rfl
@[simp] theorem State.setAcc_pc (st : State) (r : Acc) (v : Byte) : (st.setAcc r v).pc = st.pc := by cases r <;> rfl
@[simp] theorem State.setAcc_dp (st : State) (r : Acc) (v : Byte) : (st.setAcc r v).dp = st.dp := by cases r <;> rfl
@[simp] theorem State.setAcc_cc (st : State) (r : Acc) (v : Byte) : (st.setAcc r v).cc = st.cc := by cases r <;> rfl
@[simp] theorem State.setAcc_nmiArmed (st : State) (r : Acc) (v : Byte) : (st.setAcc r v).nmiArmed = st.nmiArmed :=
  by cases r <;> rfl
@[simp] theorem State.setAcc_nmiPending (st : State) (r : Acc) (v : Byte) : (st.setAcc r v).nmiPending =
    st.nmiPending := by cases r <;> rfl
@[simp] theorem State.setAcc_run (st : State) (r : Acc) (v : Byte) : (st.setAcc r v).run = st.run :=
  by cases r <;> rfl
@[simp] theorem State.setAcc_resetHalt (st : State) (r : Acc) (v : Byte) : (st.setAcc r v).resetHalt = st.resetHalt :=
  by cases r <;> rfl
@[simp] theorem State.setAcc_mem (st : State) (r : Acc) (v : Byte) : (st.setAcc r v).mem = st.mem :=
  by cases r <;> rfl
@[simp] theorem State.setAcc_platform (st : State) (r : Acc) (v : Byte) : (st.setAcc r v).platform = st.platform :=
  by cases r <;> rfl
@[simp] theorem State.setAcc_busTime (st : State) (r : Acc) (v : Byte) : (st.setAcc r v).busTime = st.busTime :=
  by cases r <;> rfl
@[simp] theorem State.setAcc_inputs (st : State) (r : Acc) (v : Byte) : (st.setAcc r v).inputs = st.inputs :=
  by cases r <;> rfl
@[simp] theorem State.setAcc_draws (st : State) (r : Acc) (v : Byte) : (st.setAcc r v).draws = st.draws :=
  by cases r <;> rfl

@[simp] theorem State.setAcc_a_a (st : State) (v : Byte) : (st.setAcc .a v).a = v := rfl
@[simp] theorem State.setAcc_a_b (st : State) (v : Byte) : (st.setAcc .a v).b = st.b := rfl
@[simp] theorem State.setAcc_b_a (st : State) (v : Byte) : (st.setAcc .b v).a = st.a := rfl
@[simp] theorem State.setAcc_b_b (st : State) (v : Byte) : (st.setAcc .b v).b = v := rfl
@[simp] theorem State.acc_setAcc (st : State) (r : Acc) (v : Byte) : (st.setAcc r v).acc r = v := by cases r <;> rfl

@[simp] theorem State.setD_a (st : State) (v : Word) : (st.setD v).a = hiByte v := rfl
@[simp] theorem State.setD_b (st : State) (v : Word) : (st.setD v).b = loByte v := rfl
@[simp] theorem State.setD_x (st : State) (v : Word) : (st.setD v).x = st.x := rfl
@[simp] theorem State.setD_y (st : State) (v : Word) : (st.setD v).y = st.y := rfl
@[simp] theorem State.setD_u (st : State) (v : Word) : (st.setD v).u = st.u := rfl
@[simp] theorem State.setD_s (st : State) (v : Word) : (st.setD v).s = st.s := rfl
@[simp] theorem State.setD_pc (st : State) (v : Word) : (st.setD v).pc = st.pc := rfl
@[simp] theorem State.setD_dp (st : State) (v : Word) : (st.setD v).dp = st.dp := rfl
@[simp] theorem State.setD_cc (st : State) (v : Word) : (st.setD v).cc = st.cc := rfl
@[simp] theorem State.setD_nmiArmed (st : State) (v : Word) : (st.setD v).nmiArmed = st.nmiArmed := rfl
@[simp] theorem State.setD_nmiPending (st : State) (v : Word) : (st.setD v).nmiPending = st.nmiPending := rfl
@[simp] theorem State.setD_run (st : State) (v : Word) : (st.setD v).run = st.run := rfl
@[simp] theorem State.setD_resetHalt (st : State) (v : Word) : (st.setD v).resetHalt = st.resetHalt := rfl
@[simp] theorem State.setD_mem (st : State) (v : Word) : (st.setD v).mem = st.mem := rfl
@[simp] theorem State.setD_platform (st : State) (v : Word) : (st.setD v).platform = st.platform := rfl
@[simp] theorem State.setD_busTime (st : State) (v : Word) : (st.setD v).busTime = st.busTime := rfl
@[simp] theorem State.setD_inputs (st : State) (v : Word) : (st.setD v).inputs = st.inputs := rfl
@[simp] theorem State.setD_draws (st : State) (v : Word) : (st.setD v).draws = st.draws := rfl

@[simp] theorem State.loadS_a (st : State) (v : Word) : (st.loadS v).a = st.a := rfl
@[simp] theorem State.loadS_b (st : State) (v : Word) : (st.loadS v).b = st.b := rfl
@[simp] theorem State.loadS_x (st : State) (v : Word) : (st.loadS v).x = st.x := rfl
@[simp] theorem State.loadS_y (st : State) (v : Word) : (st.loadS v).y = st.y := rfl
@[simp] theorem State.loadS_u (st : State) (v : Word) : (st.loadS v).u = st.u := rfl
@[simp] theorem State.loadS_s (st : State) (v : Word) : (st.loadS v).s = v := rfl
@[simp] theorem State.loadS_pc (st : State) (v : Word) : (st.loadS v).pc = st.pc := rfl
@[simp] theorem State.loadS_dp (st : State) (v : Word) : (st.loadS v).dp = st.dp := rfl
@[simp] theorem State.loadS_cc (st : State) (v : Word) : (st.loadS v).cc = st.cc := rfl
@[simp] theorem State.loadS_nmiArmed (st : State) (v : Word) : (st.loadS v).nmiArmed = true := rfl
@[simp] theorem State.loadS_nmiPending (st : State) (v : Word) : (st.loadS v).nmiPending = st.nmiPending := rfl
@[simp] theorem State.loadS_run (st : State) (v : Word) : (st.loadS v).run = st.run := rfl
@[simp] theorem State.loadS_resetHalt (st : State) (v : Word) : (st.loadS v).resetHalt = st.resetHalt := rfl
@[simp] theorem State.loadS_mem (st : State) (v : Word) : (st.loadS v).mem = st.mem := rfl
@[simp] theorem State.loadS_platform (st : State) (v : Word) : (st.loadS v).platform = st.platform := rfl
@[simp] theorem State.loadS_busTime (st : State) (v : Word) : (st.loadS v).busTime = st.busTime := rfl
@[simp] theorem State.loadS_inputs (st : State) (v : Word) : (st.loadS v).inputs = st.inputs := rfl
@[simp] theorem State.loadS_draws (st : State) (v : Word) : (st.loadS v).draws = st.draws := rfl

@[simp] theorem State.assignS_a (st : State) (v : Word) : (st.assignS v).a = st.a := rfl
@[simp] theorem State.assignS_b (st : State) (v : Word) : (st.assignS v).b = st.b := rfl
@[simp] theorem State.assignS_x (st : State) (v : Word) : (st.assignS v).x = st.x := rfl
@[simp] theorem State.assignS_y (st : State) (v : Word) : (st.assignS v).y = st.y := rfl
@[simp] theorem State.assignS_u (st : State) (v : Word) : (st.assignS v).u = st.u := rfl
@[simp] theorem State.assignS_s (st : State) (v : Word) : (st.assignS v).s = v := rfl
@[simp] theorem State.assignS_pc (st : State) (v : Word) : (st.assignS v).pc = st.pc := rfl
@[simp] theorem State.assignS_dp (st : State) (v : Word) : (st.assignS v).dp = st.dp := rfl
@[simp] theorem State.assignS_cc (st : State) (v : Word) : (st.assignS v).cc = st.cc := rfl
@[simp] theorem State.assignS_nmiArmed (st : State) (v : Word) : (st.assignS v).nmiArmed =
    (st.nmiArmed || st.platform.nmiArmSet == .wide) := rfl
@[simp] theorem State.assignS_nmiPending (st : State) (v : Word) : (st.assignS v).nmiPending = st.nmiPending := rfl
@[simp] theorem State.assignS_run (st : State) (v : Word) : (st.assignS v).run = st.run := rfl
@[simp] theorem State.assignS_resetHalt (st : State) (v : Word) : (st.assignS v).resetHalt = st.resetHalt := rfl
@[simp] theorem State.assignS_mem (st : State) (v : Word) : (st.assignS v).mem = st.mem := rfl
@[simp] theorem State.assignS_platform (st : State) (v : Word) : (st.assignS v).platform = st.platform := rfl
@[simp] theorem State.assignS_busTime (st : State) (v : Word) : (st.assignS v).busTime = st.busTime := rfl
@[simp] theorem State.assignS_inputs (st : State) (v : Word) : (st.assignS v).inputs = st.inputs := rfl
@[simp] theorem State.assignS_draws (st : State) (v : Word) : (st.assignS v).draws = st.draws := rfl

@[simp] theorem State.assignReg16_pc (st : State) (r : Reg16) (v : Word) : (st.assignReg16 r v).pc = st.pc :=
  by cases r <;> rfl
@[simp] theorem State.assignReg16_dp (st : State) (r : Reg16) (v : Word) : (st.assignReg16 r v).dp = st.dp :=
  by cases r <;> rfl
@[simp] theorem State.assignReg16_cc (st : State) (r : Reg16) (v : Word) : (st.assignReg16 r v).cc = st.cc :=
  by cases r <;> rfl
@[simp] theorem State.assignReg16_nmiPending (st : State) (r : Reg16) (v : Word) : (st.assignReg16 r v).nmiPending =
    st.nmiPending := by cases r <;> rfl
@[simp] theorem State.assignReg16_run (st : State) (r : Reg16) (v : Word) : (st.assignReg16 r v).run = st.run :=
  by cases r <;> rfl
@[simp] theorem State.assignReg16_resetHalt (st : State) (r : Reg16) (v : Word) : (st.assignReg16 r v).resetHalt =
    st.resetHalt := by cases r <;> rfl
@[simp] theorem State.assignReg16_mem (st : State) (r : Reg16) (v : Word) : (st.assignReg16 r v).mem = st.mem :=
  by cases r <;> rfl
@[simp] theorem State.assignReg16_platform (st : State) (r : Reg16) (v : Word) : (st.assignReg16 r v).platform =
    st.platform := by cases r <;> rfl
@[simp] theorem State.assignReg16_busTime (st : State) (r : Reg16) (v : Word) : (st.assignReg16 r v).busTime =
    st.busTime := by cases r <;> rfl
@[simp] theorem State.assignReg16_inputs (st : State) (r : Reg16) (v : Word) : (st.assignReg16 r v).inputs =
    st.inputs := by cases r <;> rfl
@[simp] theorem State.assignReg16_draws (st : State) (r : Reg16) (v : Word) : (st.assignReg16 r v).draws = st.draws :=
  by cases r <;> rfl

@[simp] theorem State.assignReg16_x (st : State) (v : Word) : st.assignReg16 .x v = { st with x := v } := rfl
@[simp] theorem State.assignReg16_y (st : State) (v : Word) : st.assignReg16 .y v = { st with y := v } := rfl
@[simp] theorem State.assignReg16_u (st : State) (v : Word) : st.assignReg16 .u v = { st with u := v } := rfl
@[simp] theorem State.assignReg16_s (st : State) (v : Word) : st.assignReg16 .s v = st.assignS v := rfl

@[simp] theorem State.loadReg16_pc (st : State) (r : Reg16) (v : Word) : (st.loadReg16 r v).pc = st.pc :=
  by cases r <;> rfl
@[simp] theorem State.loadReg16_dp (st : State) (r : Reg16) (v : Word) : (st.loadReg16 r v).dp = st.dp :=
  by cases r <;> rfl
@[simp] theorem State.loadReg16_cc (st : State) (r : Reg16) (v : Word) : (st.loadReg16 r v).cc = st.cc :=
  by cases r <;> rfl
@[simp] theorem State.loadReg16_nmiPending (st : State) (r : Reg16) (v : Word) : (st.loadReg16 r v).nmiPending =
    st.nmiPending := by cases r <;> rfl
@[simp] theorem State.loadReg16_run (st : State) (r : Reg16) (v : Word) : (st.loadReg16 r v).run = st.run :=
  by cases r <;> rfl
@[simp] theorem State.loadReg16_resetHalt (st : State) (r : Reg16) (v : Word) : (st.loadReg16 r v).resetHalt =
    st.resetHalt := by cases r <;> rfl
@[simp] theorem State.loadReg16_mem (st : State) (r : Reg16) (v : Word) : (st.loadReg16 r v).mem = st.mem :=
  by cases r <;> rfl
@[simp] theorem State.loadReg16_platform (st : State) (r : Reg16) (v : Word) : (st.loadReg16 r v).platform =
    st.platform := by cases r <;> rfl
@[simp] theorem State.loadReg16_busTime (st : State) (r : Reg16) (v : Word) : (st.loadReg16 r v).busTime =
    st.busTime := by cases r <;> rfl
@[simp] theorem State.loadReg16_inputs (st : State) (r : Reg16) (v : Word) : (st.loadReg16 r v).inputs = st.inputs :=
  by cases r <;> rfl
@[simp] theorem State.loadReg16_draws (st : State) (r : Reg16) (v : Word) : (st.loadReg16 r v).draws = st.draws :=
  by cases r <;> rfl

@[simp] theorem State.loadReg16_d (st : State) (v : Word) : st.loadReg16 .d v = st.setD v := rfl
@[simp] theorem State.loadReg16_s (st : State) (v : Word) : st.loadReg16 .s v = st.loadS v := rfl
@[simp] theorem State.loadReg16_x (st : State) (v : Word) : st.loadReg16 .x v = { st with x := v } := rfl
@[simp] theorem State.loadReg16_y (st : State) (v : Word) : st.loadReg16 .y v = { st with y := v } := rfl
@[simp] theorem State.loadReg16_u (st : State) (v : Word) : st.loadReg16 .u v = { st with u := v } := rfl

@[simp] theorem State.setPtr_a (st : State) (r : PtrReg) (v : Word) : (st.setPtr r v).a = st.a := by cases r <;> rfl
@[simp] theorem State.setPtr_b (st : State) (r : PtrReg) (v : Word) : (st.setPtr r v).b = st.b := by cases r <;> rfl
@[simp] theorem State.setPtr_pc (st : State) (r : PtrReg) (v : Word) : (st.setPtr r v).pc = st.pc :=
  by cases r <;> rfl
@[simp] theorem State.setPtr_dp (st : State) (r : PtrReg) (v : Word) : (st.setPtr r v).dp = st.dp :=
  by cases r <;> rfl
@[simp] theorem State.setPtr_cc (st : State) (r : PtrReg) (v : Word) : (st.setPtr r v).cc = st.cc :=
  by cases r <;> rfl
@[simp] theorem State.setPtr_nmiArmed (st : State) (r : PtrReg) (v : Word) : (st.setPtr r v).nmiArmed = st.nmiArmed :=
  by cases r <;> rfl
@[simp] theorem State.setPtr_nmiPending (st : State) (r : PtrReg) (v : Word) : (st.setPtr r v).nmiPending =
    st.nmiPending := by cases r <;> rfl
@[simp] theorem State.setPtr_run (st : State) (r : PtrReg) (v : Word) : (st.setPtr r v).run = st.run :=
  by cases r <;> rfl
@[simp] theorem State.setPtr_resetHalt (st : State) (r : PtrReg) (v : Word) : (st.setPtr r v).resetHalt =
    st.resetHalt := by cases r <;> rfl
@[simp] theorem State.setPtr_mem (st : State) (r : PtrReg) (v : Word) : (st.setPtr r v).mem = st.mem :=
  by cases r <;> rfl
@[simp] theorem State.setPtr_platform (st : State) (r : PtrReg) (v : Word) : (st.setPtr r v).platform = st.platform :=
  by cases r <;> rfl
@[simp] theorem State.setPtr_busTime (st : State) (r : PtrReg) (v : Word) : (st.setPtr r v).busTime = st.busTime :=
  by cases r <;> rfl
@[simp] theorem State.setPtr_inputs (st : State) (r : PtrReg) (v : Word) : (st.setPtr r v).inputs = st.inputs :=
  by cases r <;> rfl
@[simp] theorem State.setPtr_draws (st : State) (r : PtrReg) (v : Word) : (st.setPtr r v).draws = st.draws :=
  by cases r <;> rfl

@[simp] theorem State.ptr_setPtr (st : State) (r : PtrReg) (v : Word) : (st.setPtr r v).ptr r = v :=
  by cases r <;> rfl

/-- Adjusting one pointer register leaves the other three. -/
theorem State.ptr_setPtr_ne (st : State) (r q : PtrReg) (v : Word) (h : q ≠ r) : (st.setPtr r v).ptr q = st.ptr q :=
  by
  cases r <;> cases q <;> first | rfl | exact absurd rfl h

/-! ### The two stacks -/

@[simp] theorem State.setSp_a (st : State) (k : Stack) (v : Word) : (st.setSp k v).a = st.a := by cases k <;> rfl
@[simp] theorem State.setSp_b (st : State) (k : Stack) (v : Word) : (st.setSp k v).b = st.b := by cases k <;> rfl
@[simp] theorem State.setSp_x (st : State) (k : Stack) (v : Word) : (st.setSp k v).x = st.x := by cases k <;> rfl
@[simp] theorem State.setSp_y (st : State) (k : Stack) (v : Word) : (st.setSp k v).y = st.y := by cases k <;> rfl
@[simp] theorem State.setSp_pc (st : State) (k : Stack) (v : Word) : (st.setSp k v).pc = st.pc := by cases k <;> rfl
@[simp] theorem State.setSp_dp (st : State) (k : Stack) (v : Word) : (st.setSp k v).dp = st.dp := by cases k <;> rfl
@[simp] theorem State.setSp_cc (st : State) (k : Stack) (v : Word) : (st.setSp k v).cc = st.cc := by cases k <;> rfl
@[simp] theorem State.setSp_nmiArmed (st : State) (k : Stack) (v : Word) : (st.setSp k v).nmiArmed = st.nmiArmed :=
  by cases k <;> rfl
@[simp] theorem State.setSp_nmiPending (st : State) (k : Stack) (v : Word) : (st.setSp k v).nmiPending =
    st.nmiPending := by cases k <;> rfl
@[simp] theorem State.setSp_run (st : State) (k : Stack) (v : Word) : (st.setSp k v).run = st.run :=
  by cases k <;> rfl
@[simp] theorem State.setSp_resetHalt (st : State) (k : Stack) (v : Word) : (st.setSp k v).resetHalt = st.resetHalt :=
  by cases k <;> rfl
@[simp] theorem State.setSp_mem (st : State) (k : Stack) (v : Word) : (st.setSp k v).mem = st.mem :=
  by cases k <;> rfl
@[simp] theorem State.setSp_platform (st : State) (k : Stack) (v : Word) : (st.setSp k v).platform = st.platform :=
  by cases k <;> rfl
@[simp] theorem State.setSp_busTime (st : State) (k : Stack) (v : Word) : (st.setSp k v).busTime = st.busTime :=
  by cases k <;> rfl
@[simp] theorem State.setSp_inputs (st : State) (k : Stack) (v : Word) : (st.setSp k v).inputs = st.inputs :=
  by cases k <;> rfl
@[simp] theorem State.setSp_draws (st : State) (k : Stack) (v : Word) : (st.setSp k v).draws = st.draws :=
  by cases k <;> rfl

@[simp] theorem State.sp_setSp (st : State) (k : Stack) (v : Word) : (st.setSp k v).sp k = v := by cases k <;> rfl
@[simp] theorem State.otherSp_setSp (st : State) (k : Stack) (v : Word) : (st.setSp k v).otherSp k = st.otherSp k :=
  by
  cases k <;> rfl
@[simp] theorem State.setSp_s_s (st : State) (v : Word) : (st.setSp .s v).s = v := rfl
@[simp] theorem State.setSp_s_u (st : State) (v : Word) : (st.setSp .s v).u = st.u := rfl
@[simp] theorem State.setSp_u_u (st : State) (v : Word) : (st.setSp .u v).u = v := rfl
@[simp] theorem State.setSp_u_s (st : State) (v : Word) : (st.setSp .u v).s = st.s := rfl

@[simp] theorem State.loadOtherSp_a (st : State) (k : Stack) (v : Word) : (st.loadOtherSp k v).a = st.a :=
  by cases k <;> rfl
@[simp] theorem State.loadOtherSp_b (st : State) (k : Stack) (v : Word) : (st.loadOtherSp k v).b = st.b :=
  by cases k <;> rfl
@[simp] theorem State.loadOtherSp_x (st : State) (k : Stack) (v : Word) : (st.loadOtherSp k v).x = st.x :=
  by cases k <;> rfl
@[simp] theorem State.loadOtherSp_y (st : State) (k : Stack) (v : Word) : (st.loadOtherSp k v).y = st.y :=
  by cases k <;> rfl
@[simp] theorem State.loadOtherSp_pc (st : State) (k : Stack) (v : Word) : (st.loadOtherSp k v).pc = st.pc :=
  by cases k <;> rfl
@[simp] theorem State.loadOtherSp_dp (st : State) (k : Stack) (v : Word) : (st.loadOtherSp k v).dp = st.dp :=
  by cases k <;> rfl
@[simp] theorem State.loadOtherSp_cc (st : State) (k : Stack) (v : Word) : (st.loadOtherSp k v).cc = st.cc :=
  by cases k <;> rfl
@[simp] theorem State.loadOtherSp_nmiPending (st : State) (k : Stack) (v : Word) : (st.loadOtherSp k v).nmiPending =
    st.nmiPending := by cases k <;> rfl
@[simp] theorem State.loadOtherSp_run (st : State) (k : Stack) (v : Word) : (st.loadOtherSp k v).run = st.run :=
  by cases k <;> rfl
@[simp] theorem State.loadOtherSp_resetHalt (st : State) (k : Stack) (v : Word) : (st.loadOtherSp k v).resetHalt =
    st.resetHalt := by cases k <;> rfl
@[simp] theorem State.loadOtherSp_mem (st : State) (k : Stack) (v : Word) : (st.loadOtherSp k v).mem = st.mem :=
  by cases k <;> rfl
@[simp] theorem State.loadOtherSp_platform (st : State) (k : Stack) (v : Word) : (st.loadOtherSp k v).platform =
    st.platform := by cases k <;> rfl
@[simp] theorem State.loadOtherSp_busTime (st : State) (k : Stack) (v : Word) : (st.loadOtherSp k v).busTime =
    st.busTime := by cases k <;> rfl
@[simp] theorem State.loadOtherSp_inputs (st : State) (k : Stack) (v : Word) : (st.loadOtherSp k v).inputs =
    st.inputs := by cases k <;> rfl
@[simp] theorem State.loadOtherSp_draws (st : State) (k : Stack) (v : Word) : (st.loadOtherSp k v).draws = st.draws :=
  by cases k <;> rfl

@[simp] theorem State.push8_a (st : State) (k : Stack) (v : Byte) : (st.push8 k v).a = st.a := by cases k <;> rfl
@[simp] theorem State.push8_b (st : State) (k : Stack) (v : Byte) : (st.push8 k v).b = st.b := by cases k <;> rfl
@[simp] theorem State.push8_x (st : State) (k : Stack) (v : Byte) : (st.push8 k v).x = st.x := by cases k <;> rfl
@[simp] theorem State.push8_y (st : State) (k : Stack) (v : Byte) : (st.push8 k v).y = st.y := by cases k <;> rfl
@[simp] theorem State.push8_pc (st : State) (k : Stack) (v : Byte) : (st.push8 k v).pc = st.pc := by cases k <;> rfl
@[simp] theorem State.push8_dp (st : State) (k : Stack) (v : Byte) : (st.push8 k v).dp = st.dp := by cases k <;> rfl
@[simp] theorem State.push8_cc (st : State) (k : Stack) (v : Byte) : (st.push8 k v).cc = st.cc := by cases k <;> rfl
@[simp] theorem State.push8_nmiArmed (st : State) (k : Stack) (v : Byte) : (st.push8 k v).nmiArmed = st.nmiArmed :=
  by cases k <;> rfl
@[simp] theorem State.push8_nmiPending (st : State) (k : Stack) (v : Byte) : (st.push8 k v).nmiPending =
    st.nmiPending := by cases k <;> rfl
@[simp] theorem State.push8_run (st : State) (k : Stack) (v : Byte) : (st.push8 k v).run = st.run :=
  by cases k <;> rfl
@[simp] theorem State.push8_resetHalt (st : State) (k : Stack) (v : Byte) : (st.push8 k v).resetHalt = st.resetHalt :=
  by cases k <;> rfl
@[simp] theorem State.push8_mem (st : State) (k : Stack) (v : Byte) : (st.push8 k v).mem =
    st.mem.store st.platform (st.sp k - 1#16) v := by cases k <;> rfl
@[simp] theorem State.push8_platform (st : State) (k : Stack) (v : Byte) : (st.push8 k v).platform = st.platform :=
  by cases k <;> rfl
@[simp] theorem State.push8_busTime (st : State) (k : Stack) (v : Byte) : (st.push8 k v).busTime = st.busTime :=
  by cases k <;> rfl
@[simp] theorem State.push8_inputs (st : State) (k : Stack) (v : Byte) : (st.push8 k v).inputs = st.inputs :=
  by cases k <;> rfl
@[simp] theorem State.push8_draws (st : State) (k : Stack) (v : Byte) : (st.push8 k v).draws = st.draws :=
  by cases k <;> rfl

@[simp] theorem State.sp_push8 (st : State) (k : Stack) (v : Byte) : (st.push8 k v).sp k = st.sp k - 1#16 := by
  cases k <;> rfl
@[simp] theorem State.otherSp_push8 (st : State) (k : Stack) (v : Byte) : (st.push8 k v).otherSp k = st.otherSp k :=
  by
  cases k <;> rfl

@[simp] theorem State.push16_a (st : State) (k : Stack) (v : Word) : (st.push16 k v).a = st.a := by cases k <;> rfl
@[simp] theorem State.push16_b (st : State) (k : Stack) (v : Word) : (st.push16 k v).b = st.b := by cases k <;> rfl
@[simp] theorem State.push16_x (st : State) (k : Stack) (v : Word) : (st.push16 k v).x = st.x := by cases k <;> rfl
@[simp] theorem State.push16_y (st : State) (k : Stack) (v : Word) : (st.push16 k v).y = st.y := by cases k <;> rfl
@[simp] theorem State.push16_pc (st : State) (k : Stack) (v : Word) : (st.push16 k v).pc = st.pc := by cases k <;> rfl
@[simp] theorem State.push16_dp (st : State) (k : Stack) (v : Word) : (st.push16 k v).dp = st.dp := by cases k <;> rfl
@[simp] theorem State.push16_cc (st : State) (k : Stack) (v : Word) : (st.push16 k v).cc = st.cc := by cases k <;> rfl
@[simp] theorem State.push16_nmiArmed (st : State) (k : Stack) (v : Word) : (st.push16 k v).nmiArmed = st.nmiArmed :=
  by cases k <;> rfl
@[simp] theorem State.push16_nmiPending (st : State) (k : Stack) (v : Word) : (st.push16 k v).nmiPending =
    st.nmiPending := by cases k <;> rfl
@[simp] theorem State.push16_run (st : State) (k : Stack) (v : Word) : (st.push16 k v).run = st.run :=
  by cases k <;> rfl
@[simp] theorem State.push16_resetHalt (st : State) (k : Stack) (v : Word) : (st.push16 k v).resetHalt =
    st.resetHalt := by cases k <;> rfl
@[simp] theorem State.push16_mem (st : State) (k : Stack) (v : Word) : (st.push16 k v).mem =
    (st.mem.store st.platform (st.sp k - 1#16) (loByte v)).store st.platform (st.sp k - 1#16 - 1#16) (hiByte v) := by cases k <;> rfl
@[simp] theorem State.push16_platform (st : State) (k : Stack) (v : Word) : (st.push16 k v).platform = st.platform :=
  by cases k <;> rfl
@[simp] theorem State.push16_busTime (st : State) (k : Stack) (v : Word) : (st.push16 k v).busTime = st.busTime :=
  by cases k <;> rfl
@[simp] theorem State.push16_inputs (st : State) (k : Stack) (v : Word) : (st.push16 k v).inputs = st.inputs :=
  by cases k <;> rfl
@[simp] theorem State.push16_draws (st : State) (k : Stack) (v : Word) : (st.push16 k v).draws = st.draws :=
  by cases k <;> rfl

@[simp] theorem State.sp_push16 (st : State) (k : Stack) (v : Word) : (st.push16 k v).sp k = st.sp k - 1#16 - 1#16 :=
  by
  cases k <;> rfl
@[simp] theorem State.otherSp_push16 (st : State) (k : Stack) (v : Word) : (st.push16 k v).otherSp k = st.otherSp k :=
  by
  cases k <;> rfl

@[simp] theorem State.drop_a (st : State) (k : Stack) (n : Word) : (st.drop k n).a = st.a := by cases k <;> rfl
@[simp] theorem State.drop_b (st : State) (k : Stack) (n : Word) : (st.drop k n).b = st.b := by cases k <;> rfl
@[simp] theorem State.drop_x (st : State) (k : Stack) (n : Word) : (st.drop k n).x = st.x := by cases k <;> rfl
@[simp] theorem State.drop_y (st : State) (k : Stack) (n : Word) : (st.drop k n).y = st.y := by cases k <;> rfl
@[simp] theorem State.drop_pc (st : State) (k : Stack) (n : Word) : (st.drop k n).pc = st.pc := by cases k <;> rfl
@[simp] theorem State.drop_dp (st : State) (k : Stack) (n : Word) : (st.drop k n).dp = st.dp := by cases k <;> rfl
@[simp] theorem State.drop_cc (st : State) (k : Stack) (n : Word) : (st.drop k n).cc = st.cc := by cases k <;> rfl
@[simp] theorem State.drop_nmiArmed (st : State) (k : Stack) (n : Word) : (st.drop k n).nmiArmed = st.nmiArmed :=
  by cases k <;> rfl
@[simp] theorem State.drop_nmiPending (st : State) (k : Stack) (n : Word) : (st.drop k n).nmiPending = st.nmiPending :=
  by cases k <;> rfl
@[simp] theorem State.drop_run (st : State) (k : Stack) (n : Word) : (st.drop k n).run = st.run := by cases k <;> rfl
@[simp] theorem State.drop_resetHalt (st : State) (k : Stack) (n : Word) : (st.drop k n).resetHalt = st.resetHalt :=
  by cases k <;> rfl
@[simp] theorem State.drop_mem (st : State) (k : Stack) (n : Word) : (st.drop k n).mem = st.mem := by cases k <;> rfl
@[simp] theorem State.drop_platform (st : State) (k : Stack) (n : Word) : (st.drop k n).platform = st.platform :=
  by cases k <;> rfl
@[simp] theorem State.drop_busTime (st : State) (k : Stack) (n : Word) : (st.drop k n).busTime = st.busTime :=
  by cases k <;> rfl
@[simp] theorem State.drop_inputs (st : State) (k : Stack) (n : Word) : (st.drop k n).inputs = st.inputs :=
  by cases k <;> rfl
@[simp] theorem State.drop_draws (st : State) (k : Stack) (n : Word) : (st.drop k n).draws = st.draws :=
  by cases k <;> rfl

@[simp] theorem State.sp_drop (st : State) (k : Stack) (n : Word) : (st.drop k n).sp k = st.sp k + n :=
  by cases k <;> rfl
@[simp] theorem State.otherSp_drop (st : State) (k : Stack) (n : Word) : (st.drop k n).otherSp k = st.otherSp k := by
  cases k <;> rfl

/-! ### Handlers and input lines -/

@[simp] theorem State.enterHandler_a (st : State) (ev : Event) : (st.enterHandler ev).a = st.a := rfl
@[simp] theorem State.enterHandler_b (st : State) (ev : Event) : (st.enterHandler ev).b = st.b := rfl
@[simp] theorem State.enterHandler_x (st : State) (ev : Event) : (st.enterHandler ev).x = st.x := rfl
@[simp] theorem State.enterHandler_y (st : State) (ev : Event) : (st.enterHandler ev).y = st.y := rfl
@[simp] theorem State.enterHandler_u (st : State) (ev : Event) : (st.enterHandler ev).u = st.u := rfl
@[simp] theorem State.enterHandler_s (st : State) (ev : Event) : (st.enterHandler ev).s = st.s := rfl
@[simp] theorem State.enterHandler_pc (st : State) (ev : Event) : (st.enterHandler ev).pc = st.read16 ev.vector := rfl
@[simp] theorem State.enterHandler_dp (st : State) (ev : Event) : (st.enterHandler ev).dp = st.dp := rfl
@[simp] theorem State.enterHandler_cc (st : State) (ev : Event) : (st.enterHandler ev).cc =
    { st.cc with i := st.cc.i || ev.setsI, f := st.cc.f || ev.setsF } := rfl
@[simp] theorem State.enterHandler_nmiArmed (st : State) (ev : Event) : (st.enterHandler ev).nmiArmed = st.nmiArmed :=
  rfl
@[simp] theorem State.enterHandler_nmiPending (st : State) (ev : Event) : (st.enterHandler ev).nmiPending =
    st.nmiPending := rfl
@[simp] theorem State.enterHandler_run (st : State) (ev : Event) : (st.enterHandler ev).run = st.run := rfl
@[simp] theorem State.enterHandler_resetHalt (st : State) (ev : Event) : (st.enterHandler ev).resetHalt =
    st.resetHalt := rfl
@[simp] theorem State.enterHandler_mem (st : State) (ev : Event) : (st.enterHandler ev).mem = st.mem := rfl
@[simp] theorem State.enterHandler_platform (st : State) (ev : Event) : (st.enterHandler ev).platform = st.platform :=
  rfl
@[simp] theorem State.enterHandler_busTime (st : State) (ev : Event) : (st.enterHandler ev).busTime = st.busTime :=
  rfl
@[simp] theorem State.enterHandler_inputs (st : State) (ev : Event) : (st.enterHandler ev).inputs = st.inputs := rfl
@[simp] theorem State.enterHandler_draws (st : State) (ev : Event) : (st.enterHandler ev).draws = st.draws := rfl

@[simp] theorem State.latchNmi_a (st : State) (p : Sample) : (st.latchNmi p).a = st.a := rfl
@[simp] theorem State.latchNmi_b (st : State) (p : Sample) : (st.latchNmi p).b = st.b := rfl
@[simp] theorem State.latchNmi_x (st : State) (p : Sample) : (st.latchNmi p).x = st.x := rfl
@[simp] theorem State.latchNmi_y (st : State) (p : Sample) : (st.latchNmi p).y = st.y := rfl
@[simp] theorem State.latchNmi_u (st : State) (p : Sample) : (st.latchNmi p).u = st.u := rfl
@[simp] theorem State.latchNmi_s (st : State) (p : Sample) : (st.latchNmi p).s = st.s := rfl
@[simp] theorem State.latchNmi_pc (st : State) (p : Sample) : (st.latchNmi p).pc = st.pc := rfl
@[simp] theorem State.latchNmi_dp (st : State) (p : Sample) : (st.latchNmi p).dp = st.dp := rfl
@[simp] theorem State.latchNmi_cc (st : State) (p : Sample) : (st.latchNmi p).cc = st.cc := rfl
@[simp] theorem State.latchNmi_nmiArmed (st : State) (p : Sample) : (st.latchNmi p).nmiArmed = st.nmiArmed := rfl
@[simp] theorem State.latchNmi_nmiPending (st : State) (p : Sample) : (st.latchNmi p).nmiPending =
    (st.nmiPending || (p.nmiEdge && (st.nmiArmed || Config.nmiLatchedWhileDisarmed))) := rfl
@[simp] theorem State.latchNmi_run (st : State) (p : Sample) : (st.latchNmi p).run = st.run := rfl
@[simp] theorem State.latchNmi_resetHalt (st : State) (p : Sample) : (st.latchNmi p).resetHalt = st.resetHalt := rfl
@[simp] theorem State.latchNmi_mem (st : State) (p : Sample) : (st.latchNmi p).mem = st.mem := rfl
@[simp] theorem State.latchNmi_platform (st : State) (p : Sample) : (st.latchNmi p).platform = st.platform := rfl
@[simp] theorem State.latchNmi_busTime (st : State) (p : Sample) : (st.latchNmi p).busTime = st.busTime := rfl
@[simp] theorem State.latchNmi_inputs (st : State) (p : Sample) : (st.latchNmi p).inputs = st.inputs := rfl
@[simp] theorem State.latchNmi_draws (st : State) (p : Sample) : (st.latchNmi p).draws = st.draws := rfl

@[simp] theorem State.acknowledge_a (st : State) (ev : Event) : (st.acknowledge ev).a = st.a := rfl
@[simp] theorem State.acknowledge_b (st : State) (ev : Event) : (st.acknowledge ev).b = st.b := rfl
@[simp] theorem State.acknowledge_x (st : State) (ev : Event) : (st.acknowledge ev).x = st.x := rfl
@[simp] theorem State.acknowledge_y (st : State) (ev : Event) : (st.acknowledge ev).y = st.y := rfl
@[simp] theorem State.acknowledge_u (st : State) (ev : Event) : (st.acknowledge ev).u = st.u := rfl
@[simp] theorem State.acknowledge_s (st : State) (ev : Event) : (st.acknowledge ev).s = st.s := rfl
@[simp] theorem State.acknowledge_pc (st : State) (ev : Event) : (st.acknowledge ev).pc = st.pc := rfl
@[simp] theorem State.acknowledge_dp (st : State) (ev : Event) : (st.acknowledge ev).dp = st.dp := rfl
@[simp] theorem State.acknowledge_cc (st : State) (ev : Event) : (st.acknowledge ev).cc = st.cc := rfl
@[simp] theorem State.acknowledge_nmiArmed (st : State) (ev : Event) : (st.acknowledge ev).nmiArmed = st.nmiArmed :=
  rfl
@[simp] theorem State.acknowledge_nmiPending (st : State) (ev : Event) : (st.acknowledge ev).nmiPending =
    (st.nmiPending && ev != .nmi) := rfl
@[simp] theorem State.acknowledge_run (st : State) (ev : Event) : (st.acknowledge ev).run = st.run := rfl
@[simp] theorem State.acknowledge_resetHalt (st : State) (ev : Event) : (st.acknowledge ev).resetHalt = st.resetHalt :=
  rfl
@[simp] theorem State.acknowledge_mem (st : State) (ev : Event) : (st.acknowledge ev).mem = st.mem := rfl
@[simp] theorem State.acknowledge_platform (st : State) (ev : Event) : (st.acknowledge ev).platform = st.platform :=
  rfl
@[simp] theorem State.acknowledge_busTime (st : State) (ev : Event) : (st.acknowledge ev).busTime = st.busTime := rfl
@[simp] theorem State.acknowledge_inputs (st : State) (ev : Event) : (st.acknowledge ev).inputs = st.inputs := rfl
@[simp] theorem State.acknowledge_draws (st : State) (ev : Event) : (st.acknowledge ev).draws = st.draws := rfl

@[simp] theorem State.beginStep_a (st : State) : (st.beginStep).a = st.a := rfl
@[simp] theorem State.beginStep_b (st : State) : (st.beginStep).b = st.b := rfl
@[simp] theorem State.beginStep_x (st : State) : (st.beginStep).x = st.x := rfl
@[simp] theorem State.beginStep_y (st : State) : (st.beginStep).y = st.y := rfl
@[simp] theorem State.beginStep_u (st : State) : (st.beginStep).u = st.u := rfl
@[simp] theorem State.beginStep_s (st : State) : (st.beginStep).s = st.s := rfl
@[simp] theorem State.beginStep_pc (st : State) : (st.beginStep).pc = st.pc := rfl
@[simp] theorem State.beginStep_dp (st : State) : (st.beginStep).dp = st.dp := rfl
@[simp] theorem State.beginStep_cc (st : State) : (st.beginStep).cc = st.cc := rfl
@[simp] theorem State.beginStep_nmiArmed (st : State) : (st.beginStep).nmiArmed = st.nmiArmed := rfl
@[simp] theorem State.beginStep_nmiPending (st : State) : (st.beginStep).nmiPending = st.nmiPending := rfl
@[simp] theorem State.beginStep_run (st : State) : (st.beginStep).run = st.run := rfl
@[simp] theorem State.beginStep_resetHalt (st : State) : (st.beginStep).resetHalt = st.resetHalt := rfl
@[simp] theorem State.beginStep_mem (st : State) : (st.beginStep).mem = st.mem := rfl
@[simp] theorem State.beginStep_platform (st : State) : (st.beginStep).platform = st.platform := rfl
@[simp] theorem State.beginStep_busTime (st : State) : (st.beginStep).busTime = st.busTime + 1 := rfl
@[simp] theorem State.beginStep_inputs (st : State) : (st.beginStep).inputs = st.inputs.tail := rfl
@[simp] theorem State.beginStep_draws (st : State) : (st.beginStep).draws = st.draws := rfl

@[simp] theorem State.placeAtPC_a (st : State) (bytes : List Byte) : (st.placeAtPC bytes).a = st.a := rfl
@[simp] theorem State.placeAtPC_b (st : State) (bytes : List Byte) : (st.placeAtPC bytes).b = st.b := rfl
@[simp] theorem State.placeAtPC_x (st : State) (bytes : List Byte) : (st.placeAtPC bytes).x = st.x := rfl
@[simp] theorem State.placeAtPC_y (st : State) (bytes : List Byte) : (st.placeAtPC bytes).y = st.y := rfl
@[simp] theorem State.placeAtPC_u (st : State) (bytes : List Byte) : (st.placeAtPC bytes).u = st.u := rfl
@[simp] theorem State.placeAtPC_s (st : State) (bytes : List Byte) : (st.placeAtPC bytes).s = st.s := rfl
@[simp] theorem State.placeAtPC_pc (st : State) (bytes : List Byte) : (st.placeAtPC bytes).pc = st.pc := rfl
@[simp] theorem State.placeAtPC_dp (st : State) (bytes : List Byte) : (st.placeAtPC bytes).dp = st.dp := rfl
@[simp] theorem State.placeAtPC_cc (st : State) (bytes : List Byte) : (st.placeAtPC bytes).cc = st.cc := rfl
@[simp] theorem State.placeAtPC_nmiArmed (st : State) (bytes : List Byte) : (st.placeAtPC bytes).nmiArmed =
    st.nmiArmed := rfl
@[simp] theorem State.placeAtPC_nmiPending (st : State) (bytes : List Byte) : (st.placeAtPC bytes).nmiPending =
    false := rfl
@[simp] theorem State.placeAtPC_run (st : State) (bytes : List Byte) : (st.placeAtPC bytes).run = .running := rfl
@[simp] theorem State.placeAtPC_resetHalt (st : State) (bytes : List Byte) : (st.placeAtPC bytes).resetHalt =
    st.resetHalt := rfl
@[simp] theorem State.placeAtPC_mem (st : State) (bytes : List Byte) : (st.placeAtPC bytes).mem =
    st.mem.writeAll st.pc bytes := rfl
@[simp] theorem State.placeAtPC_platform (st : State) (bytes : List Byte) : (st.placeAtPC bytes).platform =
    st.platform.withMemoryAt st.pc bytes.length := rfl
@[simp] theorem State.placeAtPC_busTime (st : State) (bytes : List Byte) : (st.placeAtPC bytes).busTime = st.busTime :=
  rfl
@[simp] theorem State.placeAtPC_inputs (st : State) (bytes : List Byte) : (st.placeAtPC bytes).inputs = [] := rfl
@[simp] theorem State.placeAtPC_draws (st : State) (bytes : List Byte) : (st.placeAtPC bytes).draws = st.draws := rfl

/-! ### Indexed operands -/

@[simp] theorem State.afterIndex_a (st : State) (m : Idx) : (st.afterIndex m).a = st.a :=
  by cases m <;> simp [State.afterIndex]
@[simp] theorem State.afterIndex_b (st : State) (m : Idx) : (st.afterIndex m).b = st.b :=
  by cases m <;> simp [State.afterIndex]
@[simp] theorem State.afterIndex_pc (st : State) (m : Idx) : (st.afterIndex m).pc = st.pc :=
  by cases m <;> simp [State.afterIndex]
@[simp] theorem State.afterIndex_dp (st : State) (m : Idx) : (st.afterIndex m).dp = st.dp :=
  by cases m <;> simp [State.afterIndex]
@[simp] theorem State.afterIndex_cc (st : State) (m : Idx) : (st.afterIndex m).cc = st.cc :=
  by cases m <;> simp [State.afterIndex]
@[simp] theorem State.afterIndex_nmiArmed (st : State) (m : Idx) : (st.afterIndex m).nmiArmed = st.nmiArmed :=
  by cases m <;> simp [State.afterIndex]
@[simp] theorem State.afterIndex_nmiPending (st : State) (m : Idx) : (st.afterIndex m).nmiPending = st.nmiPending :=
  by cases m <;> simp [State.afterIndex]
@[simp] theorem State.afterIndex_run (st : State) (m : Idx) : (st.afterIndex m).run = st.run :=
  by cases m <;> simp [State.afterIndex]
@[simp] theorem State.afterIndex_resetHalt (st : State) (m : Idx) : (st.afterIndex m).resetHalt = st.resetHalt :=
  by cases m <;> simp [State.afterIndex]
@[simp] theorem State.afterIndex_mem (st : State) (m : Idx) : (st.afterIndex m).mem = st.mem :=
  by cases m <;> simp [State.afterIndex]
@[simp] theorem State.afterIndex_platform (st : State) (m : Idx) : (st.afterIndex m).platform = st.platform :=
  by cases m <;> simp [State.afterIndex]
@[simp] theorem State.afterIndex_busTime (st : State) (m : Idx) : (st.afterIndex m).busTime = st.busTime :=
  by cases m <;> simp [State.afterIndex]
@[simp] theorem State.afterIndex_inputs (st : State) (m : Idx) : (st.afterIndex m).inputs = st.inputs :=
  by cases m <;> simp [State.afterIndex]
@[simp] theorem State.afterIndex_draws (st : State) (m : Idx) : (st.afterIndex m).draws = st.draws :=
  by cases m <;> simp [State.afterIndex]

end Sys2Proof.Machine
end

