-- ==== Sys2Proof/Laws/Ops.lean ====
section
/-! SUPPORT. What each shared operation can do, said once: byte order, the condition code byte, reads after
writes, pushes and pulls, the two stackings, indexed operands. -/

namespace Sys2Proof.Machine

/-! ### Bytes and words -/

theorem toNat_wordOf (h l : Byte) : (wordOf h l).toNat = h.toNat * 256 + l.toNat := by
  have hl : l.toNat < 256 := l.isLt
  simp only [wordOf, BitVec.toNat_append]
  rw [← Nat.shiftLeft_add_eq_or_of_lt hl, Nat.shiftLeft_eq]

theorem toNat_hiByte (v : Word) : (hiByte v).toNat = v.toNat / 256 := by
  have hv : v.toNat < 65536 := v.isLt
  simp only [hiByte, BitVec.extractLsb'_toNat, Nat.shiftRight_eq_div_pow]
  omega

theorem toNat_loByte (v : Word) : (loByte v).toNat = v.toNat % 256 := by
  simp [loByte, BitVec.extractLsb'_toNat]

@[simp] theorem hiByte_wordOf (h l : Byte) : hiByte (wordOf h l) = h := by
  have hl : l.toNat < 256 := l.isLt
  apply BitVec.eq_of_toNat_eq
  rw [toNat_hiByte, toNat_wordOf]
  omega

@[simp] theorem loByte_wordOf (h l : Byte) : loByte (wordOf h l) = l := by
  have hl : l.toNat < 256 := l.isLt
  apply BitVec.eq_of_toNat_eq
  rw [toNat_loByte, toNat_wordOf]
  omega

@[simp] theorem wordOf_hiByte_loByte (v : Word) : wordOf (hiByte v) (loByte v) = v := by
  apply BitVec.eq_of_toNat_eq
  rw [toNat_wordOf, toNat_hiByte, toNat_loByte]
  omega

/-! ### The condition code byte -/

@[simp] theorem CC.ofByte_toByte (cc : CC) : CC.ofByte cc.toByte = cc := by
  obtain ⟨e, f, h, i, n, z, v, c⟩ := cc
  cases e <;> cases f <;> cases h <;> cases i <;> cases n <;> cases z <;> cases v <;> cases c <;> rfl

@[simp] theorem CC.toByte_ofByte (b : Byte) : (CC.ofByte b).toByte = b := by
  revert b
  decide +kernel

/-! ### The bus: reads and writes at RAM, ROM and devices -/

@[simp] theorem Memory.store_ram {p : Platform} {a : Word} (h : p.kindAt a = .ram) (m : Memory) (v : Byte) :
    m.store p a v = Memory.write m a v := by simp [Memory.store, h]

/-- A write where no RAM answers leaves memory as it is. -/
theorem Memory.store_ne_ram {p : Platform} {a : Word} (h : p.kindAt a ≠ .ram) (m : Memory) (v : Byte) :
    m.store p a v = m := by
  unfold Memory.store
  split
  · next hr => exact absurd hr h
  · rfl
  · rfl

/-- The byte at any address after a write: the byte written where RAM takes it, the byte of before elsewhere. -/
theorem Memory.read_store (m : Memory) (p : Platform) (a q : Word) (v : Byte) :
    Memory.read (m.store p a v) q = if a = q ∧ p.kindAt a = .ram then v else Memory.read m q := by
  by_cases h : p.kindAt a = .ram
  · simp [h, Memory.read_write]
  · simp [h, Memory.store_ne_ram h]

/-- A write on the bus keeps the canonical form of memory. -/
@[simp] theorem Memory.wf_store (m : Memory) (p : Platform) (a : Word) (v : Byte) (hm : Memory.wf m = true) :
    Memory.wf (m.store p a v) = true := by
  by_cases h : p.kindAt a = .ram
  · simp [h, hm]
  · rwa [Memory.store_ne_ram h]

/-- With no region listed, every address is RAM. -/
@[simp] theorem Platform.kindAt_standard (a : Word) : Platform.standard.kindAt a = .ram := rfl

/-- Where memory answers, a read is a read of memory. -/
theorem State.busRead_memory (st : State) (k : Config.Access) {a : Word} (h : st.kindAt a ≠ .device) :
    st.busRead k a = Memory.read st.mem a := by
  unfold State.busRead
  split
  · rfl
  · rfl
  · next hd => exact absurd hd h

/-- Where no memory answers, a read is the platform's answer. -/
theorem State.busRead_device (st : State) (k : Config.Access) {a : Word} (h : st.kindAt a = .device) :
    st.busRead k a = Config.platformRead k st.busTime a := by
  simp [State.busRead, h]

/-- A read depends on the memory, the platform and the time alone. -/
theorem State.busRead_congr {st t : State} (hm : st.mem = t.mem) (hp : st.platform = t.platform)
    (ht : st.busTime = t.busTime) (k : Config.Access) (a : Word) : st.busRead k a = t.busRead k a := by
  simp [State.busRead, State.kindAt, hm, hp, ht]

theorem State.read8_congr {st t : State} (hm : st.mem = t.mem) (hp : st.platform = t.platform)
    (ht : st.busTime = t.busTime) (a : Word) : st.read8 a = t.read8 a := State.busRead_congr hm hp ht .data a

/-- What a read gives after a write: the byte written where RAM takes it, the answer of before elsewhere. -/
theorem State.busRead_write8 (st : State) (k : Config.Access) (p q : Word) (v : Byte) :
    (st.write8 p v).busRead k q = if p = q ∧ st.kindAt p = .ram then v else st.busRead k q := by
  by_cases hq : st.kindAt q = .device
  · rw [State.busRead_device _ _ (by simpa using hq), State.busRead_device _ _ hq, if_neg, State.write8_busTime]
    rintro ⟨rfl, h⟩
    simp [h] at hq
  · rw [State.busRead_memory _ _ (by simpa using hq), State.busRead_memory _ _ hq, State.write8_mem,
      Memory.read_store]
    rfl

theorem State.read8_write8 (st : State) (p q : Word) (v : Byte) :
    (st.write8 p v).read8 q = if p = q ∧ st.kindAt p = .ram then v else st.read8 q :=
  State.busRead_write8 st .data p q v

theorem State.read8_write8_same (st : State) {p : Word} (v : Byte) (h : st.kindAt p = .ram) :
    (st.write8 p v).read8 p = v := by simp [State.read8_write8, h]

theorem State.read8_write8_ne (st : State) {p q : Word} (v : Byte) (h : q ≠ p) :
    (st.write8 p v).read8 q = st.read8 q := by simp [State.read8_write8, Ne.symm h]

theorem State.read16_eq (st : State) (p : Word) : st.read16 p = wordOf (st.read8 p) (st.read8 (p + 1#16)) := rfl

/-- The next address is another one. -/
theorem Word.add_one_ne (p : Word) : p + 1#16 ≠ p := by
  intro h
  have := congrArg BitVec.toNat h
  simp only [BitVec.toNat_add, BitVec.toNat_ofNat] at this
  omega

theorem State.read8_write16 (st : State) (p q : Word) (v : Word) :
    (st.write16 p v).read8 q =
      if p + 1#16 = q ∧ st.kindAt (p + 1#16) = .ram then loByte v
      else if p = q ∧ st.kindAt p = .ram then hiByte v else st.read8 q := by
  simp [State.write16, State.read8_write8]

/-- Reading a word back from RAM, at the end of the address space too. -/
theorem State.read16_write16 (st : State) {p : Word} (v : Word) (h : st.kindAt p = .ram)
    (h1 : st.kindAt (p + 1#16) = .ram) : (st.write16 p v).read16 p = v := by
  simp [State.read16_eq, State.read8_write16, h, h1]

/-! ### Pushing and pulling -/

/-- A push is a write just below the old stack pointer. -/
theorem State.read8_push8 (st : State) (k : Stack) (v : Byte) (q : Word) :
    (st.push8 k v).read8 q =
      if st.sp k - 1#16 = q ∧ st.kindAt (st.sp k - 1#16) = .ram then v else st.read8 q := by
  rw [show (st.push8 k v).read8 q = (st.write8 (st.sp k - 1#16) v).read8 q from
    State.read8_congr (by simp) (by simp) (by simp) q, State.read8_write8]

/-- A push of a word writes the low byte, then the high byte at the lower address. -/
theorem State.read8_push16 (st : State) (k : Stack) (v : Word) (q : Word) :
    (st.push16 k v).read8 q =
      if st.sp k - 1#16 - 1#16 = q ∧ st.kindAt (st.sp k - 1#16 - 1#16) = .ram then hiByte v
      else if st.sp k - 1#16 = q ∧ st.kindAt (st.sp k - 1#16) = .ram then loByte v else st.read8 q := by
  simp [State.push16, State.read8_push8]

/-- A pull after a push to RAM returns the byte pushed. -/
theorem State.top8_push8 (st : State) (k : Stack) (v : Byte) (h : st.kindAt (st.sp k - 1#16) = .ram) :
    (st.push8 k v).top8 k = v := by
  simp [State.top8, State.read8_push8, h]

/-- A pull after a push to RAM returns the word pushed. -/
theorem State.top16_push16 (st : State) (k : Stack) (v : Word) (h1 : st.kindAt (st.sp k - 1#16) = .ram)
    (h2 : st.kindAt (st.sp k - 1#16 - 1#16) = .ram) : (st.push16 k v).top16 k = v := by
  have h : st.sp k - 1#16 - 1#16 + 1#16 = st.sp k - 1#16 := by simp
  have hne : st.sp k - 1#16 - 1#16 ≠ st.sp k - 1#16 := fun e => Word.add_one_ne _ (h.trans e.symm)
  simp only [State.top16, State.read16_eq, State.sp_push16, h, State.read8_push16, h1, h2, and_self, and_true,
    if_true, if_neg hne, wordOf_hiByte_loByte]

/-- The stacking of the entire state: E is set, S goes down by twelve, every other register stays; the memory is
the twelve writes of R440, the last one lowest. -/
theorem State.stackEntire_eq (st : State) :
    st.stackEntire =
      { st with
        cc := { st.cc with e := true }
        s := st.s - 12#16
        mem := ((((((((((((st.mem.store st.platform (st.s - 1#16) (loByte st.pc)).store st.platform
          (st.s - 2#16) (hiByte st.pc)).store st.platform
          (st.s - 3#16) (loByte st.u)).store st.platform (st.s - 4#16) (hiByte st.u)).store st.platform
          (st.s - 5#16) (loByte st.y)).store st.platform (st.s - 6#16) (hiByte st.y)).store st.platform
          (st.s - 7#16) (loByte st.x)).store st.platform (st.s - 8#16) (hiByte st.x)).store st.platform
          (st.s - 9#16) st.dp).store st.platform
          (st.s - 10#16) st.b).store st.platform (st.s - 11#16) st.a).store st.platform
          (st.s - 12#16) { st.cc with e := true }.toByte) } := by
  have h (a b : Nat) : st.s - BitVec.ofNat 16 a - BitVec.ofNat 16 b = st.s - BitVec.ofNat 16 (a + b) := by
    simp [BitVec.ofNat_add, BitVec.sub_sub]
  have hbits : ∀ n < 8, (0xFF#8).getLsbD n = true := by decide
  simp only [State.stackEntire, State.pushRegs, hbits, show (0:Nat) < 8 by omega, show (1:Nat) < 8 by omega,
    show (2:Nat) < 8 by omega, show (3:Nat) < 8 by omega, show (4:Nat) < 8 by omega,
    show (5:Nat) < 8 by omega, show (6:Nat) < 8 by omega, show (7:Nat) < 8 by omega, if_true,
    State.push8, State.push16, State.setSp, State.sp, State.otherSp, State.write8, h]

/-- The subset stacking: E is cleared, S goes down by three, PC and CC are stored. -/
theorem State.stackSubset_eq (st : State) :
    st.stackSubset =
      { st with
        cc := { st.cc with e := false }
        s := st.s - 3#16
        mem := ((st.mem.store st.platform (st.s - 1#16) (loByte st.pc)).store st.platform
          (st.s - 2#16) (hiByte st.pc)).store st.platform
          (st.s - 3#16) { st.cc with e := false }.toByte } := by
  have h (a b : Nat) : st.s - BitVec.ofNat 16 a - BitVec.ofNat 16 b = st.s - BitVec.ofNat 16 (a + b) := by
    simp [BitVec.ofNat_add, BitVec.sub_sub]
  simp only [State.stackSubset, State.pushRegs, show (0x81#8).getLsbD 7 = true from rfl,
    show (0x81#8).getLsbD 6 = false from rfl, show (0x81#8).getLsbD 5 = false from rfl,
    show (0x81#8).getLsbD 4 = false from rfl, show (0x81#8).getLsbD 3 = false from rfl,
    show (0x81#8).getLsbD 2 = false from rfl, show (0x81#8).getLsbD 1 = false from rfl,
    show (0x81#8).getLsbD 0 = true from rfl, if_true, Bool.false_eq_true, if_false,
    State.push8, State.push16, State.setSp, State.sp, State.write8, h]

/-! ### Indexed operands -/

/-- An indexed operand changes a pointer register and nothing else. -/
theorem State.afterIndex_cases (st : State) (m : Idx) :
    st.afterIndex m = st ∨ ∃ (r : PtrReg) (v : Word), st.afterIndex m = st.setPtr r v := by
  cases m with
  | inc1 r => exact .inr ⟨r, _, rfl⟩
  | inc2 r ind => exact .inr ⟨r, _, rfl⟩
  | dec1 r => exact .inr ⟨r, _, rfl⟩
  | dec2 r ind => exact .inr ⟨r, _, rfl⟩
  | off5 | zero | accB | accA | off8 | off16 | accD | pc8 | pc16 | extInd => exact .inl rfl

/-- Adjusting a pointer register changes no byte of memory. -/
@[simp] theorem State.read8_afterIndex (st : State) (m : Idx) (q : Word) :
    (st.afterIndex m).read8 q = st.read8 q :=
  State.read8_congr (by simp) (by simp) (by simp) q

/-! ### TFR and EXG -/

/-- A register takes every value of its own size, and no other. -/
theorem State.writeCode_isSome (st : State) (dst src : RegCode) (t : State) :
    (t.writeCode dst (st.readCode src)).isSome = validPair src dst := by
  cases src <;> cases dst <;> rfl

/-- TFR of a valid pair answers the state with the destination written. -/
theorem transfer_of_validPair {src dst : RegCode} (h : validPair src dst = true) (st : State) :
    ∃ t, st.writeCode dst (st.readCode src) = some t ∧ transfer src dst st = .next t := by
  obtain ⟨t, ht⟩ := Option.isSome_iff_exists.mp ((State.writeCode_isSome st dst src st).trans h)
  exact ⟨t, ht, by simp [transfer, ht]⟩

/-- EXG of a valid pair reads both registers before it writes either. -/
theorem exchange_of_validPair {src dst : RegCode} (h : validPair src dst = true) (st : State) :
    ∃ t u, st.writeCode src (st.readCode dst) = some t ∧ t.writeCode dst (st.readCode src) = some u ∧
      exchange src dst st = .next u := by
  have h' : validPair dst src = true := by revert h; cases src <;> cases dst <;> decide
  obtain ⟨t, ht⟩ := Option.isSome_iff_exists.mp ((State.writeCode_isSome st src dst st).trans h')
  obtain ⟨u, hu⟩ := Option.isSome_iff_exists.mp ((State.writeCode_isSome st dst src t).trans h)
  exact ⟨t, u, ht, hu, by simp [exchange, ht, hu]⟩

end Sys2Proof.Machine
end

