-- ==== Sys2Proof/Laws/Step.lean ====
section
/-! SUPPORT. What a step can do, said once: the input lines end it, or one instruction is fetched and executed. -/

namespace Sys2Proof.Machine

/-- A step that answers a next state ended at the input lines, or ran the instruction it fetched. -/
theorem step_cases {st t : State} (h : step st = .next t) :
    st.control = .done t ∨
      ∃ (s1 : State) (i : Instr) (s2 : State),
        st.control = .execute s1 ∧ s1.fetchInstr = .next (i, s2) ∧ exec i s2 = .next t := by
  unfold step at h
  split at h
  · next s1 hc =>
    injection h with h
    exact .inl (h ▸ hc)
  · cases h
  · next s1 hc =>
    split at h
    · next i s2 hf => exact .inr ⟨s1, i, s2, hc, hf, h⟩
    · cases h
    · cases h

/-- A fetch that finds an instruction: its bytes decode, and only PC moves, past the bytes consumed. -/
theorem fetchInstr_cases {st s2 : State} {i : Instr} (h : st.fetchInstr = .next (i, s2)) :
    ∃ rest, decode st.fetchBytes = .ok (i, rest) ∧
      s2 = { st with pc := st.pc + BitVec.ofNat 16 (st.fetchBytes.length - rest.length) } := by
  unfold State.fetchInstr at h
  split at h <;> try cases h
  next hd => exact ⟨_, hd, rfl⟩

/-- Control reaches an instruction only in the Running or the Halted state, and then changes nothing but the run
state with its reset halt, the NMI latch, the samples and the time. -/
theorem control_execute {st s1 : State} (h : st.control = .execute s1) :
    (st.run = .running ∨ st.run = .halted) ∧
      s1 = { st.beginStep.latchNmi st.sample with run := .running, resetHalt := false } := by
  unfold State.control at h
  split at h
  · next hr =>
    refine ⟨.inl hr, ?_⟩
    unfold State.atBoundary at h
    split at h <;> try cases h
    split at h <;> try cases h
    split at h <;> first | (injection h with h; exact h.symm) | cases h
  · next hr =>
    refine ⟨.inr hr, ?_⟩
    unfold State.atBoundary at h
    split at h <;> try cases h
    split at h <;> try cases h
    split at h <;> first | (injection h with h; exact h.symm) | cases h
  · unfold State.inSync at h
    split at h <;> try cases h
    split at h <;> try cases h
    split at h <;> cases h
  · unfold State.inCwai at h
    split at h <;> try cases h
    split at h <;> try cases h
    split at h <;> cases h
  · unfold State.inResetState at h
    split at h <;> cases h

end Sys2Proof.Machine
end

