-- ==== Sys2Proof/Machine/Timing.lean ====
section
/-! DEFINITION. The cycle counts that spec/opcode_table.json and 70_reset_and_hazards.md (R510 to R513) give. No
rule depends on them and the step does not count cycles (R433): these are functions beside the step. Log
entry 25. -/

namespace Sys2Proof.Machine

/-- A count of bus cycles (R510). -/
inductive Cycles where
  /-- So many cycles. -/
  | exactly (n : Nat)
  /-- At least so many: the instruction waits for an input line. -/
  | atLeast (n : Nat)
deriving DecidableEq, Repr

/-- Pick the count of the plain or of the indirect variant of an indexed form. -/
def byIndirect (ind : Bool) (plain indirect : Nat) : Nat := if ind then indirect else plain

/-- The "extra cycles" of an indexed operand (R100, R101, R132). -/
def extraCycles : Idx → Nat
  | .off5 _ _ => 1
  | .inc1 _ => 2
  | .inc2 _ ind => byIndirect ind 3 6
  | .dec1 _ => 2
  | .dec2 _ ind => byIndirect ind 3 6
  | .zero _ ind => byIndirect ind 0 3
  | .accB _ ind => byIndirect ind 1 4
  | .accA _ ind => byIndirect ind 1 4
  | .off8 _ ind _ => byIndirect ind 1 4
  | .off16 _ ind _ => byIndirect ind 4 7
  | .accD _ ind => byIndirect ind 4 7
  | .pc8 ind _ => byIndirect ind 1 4
  | .pc16 ind _ => byIndirect ind 5 8
  | .extInd _ => 5

/-- The bytes that a push or pull postbyte moves: one for CC, A, B, DP, two for X, Y, U or S, PC (R121, R512). -/
def movedBytes (pb : Byte) : Nat :=
  (pb.getLsbD 0).toNat + (pb.getLsbD 1).toNat + (pb.getLsbD 2).toNat + (pb.getLsbD 3).toNat +
    2 * ((pb.getLsbD 4).toNat + (pb.getLsbD 5).toNat + (pb.getLsbD 6).toNat + (pb.getLsbD 7).toNat)

/-- The cycles of an instruction without repeated prebytes, in the state it is executed in (R511, R512): the table's
count, the adder of the indexed operand, one cycle for each byte pushed or pulled, one more for a long conditional
branch that is taken, and RTI by the E bit it pulls. -/
def instrCycles (i : Instr) (st : State) : Cycles :=
  match i with
  | .nop | .daa | .sex | .nega | .coma | .lsra | .rora | .asra | .asla | .rola | .deca | .inca | .tsta | .clra
  | .negb | .comb | .lsrb | .rorb | .asrb | .aslb | .rolb | .decb | .incb | .tstb | .clrb | .subaImm _
  | .cmpaImm _ | .sbcaImm _ | .andaImm _ | .bitaImm _ | .ldaImm _ | .eoraImm _ | .adcaImm _ | .oraImm _
  | .addaImm _ | .subbImm _ | .cmpbImm _ | .sbcbImm _ | .andbImm _ | .bitbImm _ | .ldbImm _ | .eorbImm _
  | .adcbImm _ | .orbImm _ | .addbImm _ => .exactly 2
  | .jmpDir _ | .orcc _ | .andcc _ | .bra _ | .brn _ | .bhi _ | .bls _ | .bcc _ | .bcs _ | .bne _ | .beq _
  | .bvc _ | .bvs _ | .bpl _ | .bmi _ | .bge _ | .blt _ | .bgt _ | .ble _ | .abx | .ldxImm _ | .lddImm _
  | .lduImm _ => .exactly 3
  | .jmpExt _ | .subdImm _ | .cmpxImm _ | .subaDir _ | .cmpaDir _ | .sbcaDir _ | .andaDir _ | .bitaDir _
  | .ldaDir _ | .staDir _ | .eoraDir _ | .adcaDir _ | .oraDir _ | .addaDir _ | .adddImm _ | .subbDir _
  | .cmpbDir _ | .sbcbDir _ | .andbDir _ | .bitbDir _ | .ldbDir _ | .stbDir _ | .eorbDir _ | .adcbDir _
  | .orbDir _ | .addbDir _ | .ldyImm _ | .ldsImm _ => .exactly 4
  | .lbra _ | .rts | .ldxDir _ | .stxDir _ | .subaExt _ | .cmpaExt _ | .sbcaExt _ | .andaExt _ | .bitaExt _
  | .ldaExt _ | .staExt _ | .eoraExt _ | .adcaExt _ | .oraExt _ | .addaExt _ | .lddDir _ | .stdDir _ | .lduDir _
  | .stuDir _ | .subbExt _ | .cmpbExt _ | .sbcbExt _ | .andbExt _ | .bitbExt _ | .ldbExt _ | .stbExt _
  | .eorbExt _ | .adcbExt _ | .orbExt _ | .addbExt _ | .lbrn _ | .cmpdImm _ | .cmpyImm _ | .cmpuImm _
  | .cmpsImm _ => .exactly 5
  | .negDir _ | .comDir _ | .lsrDir _ | .rorDir _ | .asrDir _ | .aslDir _ | .rolDir _ | .decDir _ | .incDir _
  | .tstDir _ | .clrDir _ | .tfr _ _ | .subdDir _ | .cmpxDir _ | .ldxExt _ | .stxExt _ | .adddDir _ | .lddExt _
  | .stdExt _ | .lduExt _ | .stuExt _ | .ldyDir _ | .styDir _ | .ldsDir _ | .stsDir _ => .exactly 6
  | .negExt _ | .comExt _ | .lsrExt _ | .rorExt _ | .asrExt _ | .aslExt _ | .rolExt _ | .decExt _ | .incExt _
  | .tstExt _ | .clrExt _ | .bsr _ | .jsrDir _ | .subdExt _ | .cmpxExt _ | .adddExt _ | .cmpdDir _ | .cmpyDir _
  | .ldyExt _ | .styExt _ | .ldsExt _ | .stsExt _ | .cmpuDir _ | .cmpsDir _ => .exactly 7
  | .exg _ _ | .jsrExt _ | .cmpdExt _ | .cmpyExt _ | .cmpuExt _ | .cmpsExt _ => .exactly 8
  | .lbsr _ => .exactly 9
  | .mul => .exactly 11
  | .swi => .exactly 19
  | .swi2 | .swi3 => .exactly 20
  | .jmpIdx m => .exactly (3 + extraCycles m)
  | .leax m | .leay m | .leas m | .leau m | .subaIdx m | .cmpaIdx m | .sbcaIdx m | .andaIdx m | .bitaIdx m
  | .ldaIdx m | .staIdx m | .eoraIdx m | .adcaIdx m | .oraIdx m | .addaIdx m | .subbIdx m | .cmpbIdx m
  | .sbcbIdx m | .andbIdx m | .bitbIdx m | .ldbIdx m | .stbIdx m | .eorbIdx m | .adcbIdx m | .orbIdx m
  | .addbIdx m => .exactly (4 + extraCycles m)
  | .ldxIdx m | .stxIdx m | .lddIdx m | .stdIdx m | .lduIdx m | .stuIdx m => .exactly (5 + extraCycles m)
  | .negIdx m | .comIdx m | .lsrIdx m | .rorIdx m | .asrIdx m | .aslIdx m | .rolIdx m | .decIdx m | .incIdx m
  | .tstIdx m | .clrIdx m | .subdIdx m | .cmpxIdx m | .adddIdx m | .ldyIdx m | .styIdx m | .ldsIdx m | .stsIdx m
  => .exactly (6 + extraCycles m)
  | .jsrIdx m | .cmpdIdx m | .cmpyIdx m | .cmpuIdx m | .cmpsIdx m => .exactly (7 + extraCycles m)
  | .sync => .atLeast 4
  | .pshs pb => .exactly (5 + movedBytes pb)
  | .puls pb => .exactly (5 + movedBytes pb)
  | .pshu pb => .exactly (5 + movedBytes pb)
  | .pulu pb => .exactly (5 + movedBytes pb)
  | .rti => .exactly (if (CC.ofByte (st.top8 .s)).e then 15 else 6)
  | .cwai _ => .atLeast 20
  | .lbhi _ => .exactly (if Cond.holds .higher st.cc then 6 else 5)
  | .lbls _ => .exactly (if Cond.holds .lowerOrSame st.cc then 6 else 5)
  | .lbcc _ => .exactly (if Cond.holds .carryClear st.cc then 6 else 5)
  | .lbcs _ => .exactly (if Cond.holds .carrySet st.cc then 6 else 5)
  | .lbne _ => .exactly (if Cond.holds .notEqual st.cc then 6 else 5)
  | .lbeq _ => .exactly (if Cond.holds .equal st.cc then 6 else 5)
  | .lbvc _ => .exactly (if Cond.holds .overflowClear st.cc then 6 else 5)
  | .lbvs _ => .exactly (if Cond.holds .overflowSet st.cc then 6 else 5)
  | .lbpl _ => .exactly (if Cond.holds .plus st.cc then 6 else 5)
  | .lbmi _ => .exactly (if Cond.holds .minus st.cc then 6 else 5)
  | .lbge _ => .exactly (if Cond.holds .greaterOrEqual st.cc then 6 else 5)
  | .lblt _ => .exactly (if Cond.holds .less st.cc then 6 else 5)
  | .lbgt _ => .exactly (if Cond.holds .greater st.cc then 6 else 5)
  | .lble _ => .exactly (if Cond.holds .lessOrEqual st.cc then 6 else 5)

/-- So many cycles more. -/
def Cycles.plus : Cycles → Nat → Cycles
  | .exactly n, k => .exactly (n + k)
  | .atLeast n, k => .atLeast (n + k)

/-- How many bytes the fetch of the instruction at PC takes, ignored prebytes among them (R15, R92). -/
def State.fetchedLength (st : State) : Nat :=
  match decode st.fetchBytes with
  | .ok (_, rest) => st.fetchBytes.length - rest.length
  | .error _ => 0

/-- The cycles of the instruction at PC: those of the instruction itself, and one for each prebyte that is ignored
(R92; the one is decided, not stated, in D19). `none` where there is no instruction. -/
def State.cyclesAtPC (st : State) : Option Cycles :=
  match st.beginStep.fetchInstr with
  | .next (i, s2) => some ((instrCycles i s2).plus (st.beginStep.fetchedLength - (encode i).length))
  | .fault _ | .refused _ => none

/-- The cycles from the end of the interrupted instruction to the handler's first fetch, for NMI, IRQ and FIRQ
taken in the Running state (R513, derived there). -/
def entryCycles (ev : Event) : Nat := if ev.entire then 18 else 9

end Sys2Proof.Machine
end

