-- ==== Sys2Proof/Machine/BusCycles.lean ====
section
/-! DEFINITION. The bus cycles of a step, as far as the spec places them (R71, R82, R200, R385, R490, R513), with the
memory access that each makes (R62). They stand beside the step and change nothing. The charts that placed every cycle
are lost (91_not_in_source.md N7, N11): a `gap` stands wherever the spec does not say which cycles come between two
others. Log entry 26. -/

namespace Sys2Proof.Machine

/-- The kinds of bus cycle that the outputs or the spec's texts tell apart. -/
inductive CycleKind where
  /-- A cycle of the Running state whose access the spec does not give. -/
  | normal
  /-- A cycle of which the spec gives neither the access nor BA and BS. -/
  | other
  /-- Not one cycle: any number of them, none among the possibilities, whose kinds and places the spec does not give
  (N7, N11). -/
  | gap
  /-- The fetch of an instruction's first byte (R71). -/
  | opcodeFetch
  /-- The fetch of a further byte of the instruction. -/
  | instrByte
  /-- A fetch whose data is discarded (R71). -/
  | discarded
  /-- A VMA cycle, a dummy access of $FFFF (R70). -/
  | dummy
  /-- The first byte of an address that is fetched: an indirect address, or the operand of JMP extended (R470). -/
  | pointerHigh
  /-- The second byte of such an address. -/
  | pointerLow
  /-- The first byte of a double-byte operand (R470). -/
  | dataHigh
  /-- The second byte of a double-byte operand. -/
  | dataLow
  /-- A byte operand is read. -/
  | byteRead
  /-- A byte operand is written. -/
  | byteWrite
  /-- The read of a read-modify-write instruction (R69, R200). -/
  | rmwRead
  /-- The modify cycle between the read and the write, a VMA cycle (R69, R200). -/
  | rmwModify
  /-- The write of a read-modify-write instruction (R69, R200). -/
  | rmwWrite
  /-- A byte is pushed or pulled by PSH, PUL, a call or a return. -/
  | stackByte
  /-- A byte is pushed by an interrupt stacking. -/
  | stacking
  /-- The first cycle of a vector fetch: the high byte (R445). -/
  | vectorHigh
  /-- The second cycle of a vector fetch: the low byte (R445). -/
  | vectorLow
  /-- Waiting in the Sync state. -/
  | syncWait
  /-- The cycle in which interrupt processing starts out of the Sync state (R411, Figure 17). -/
  | syncAccepted
  /-- Waiting in the CwaiWait state: VMA cycles (R469). -/
  | cwaiWait
  /-- Halted at the end of an instruction. -/
  | halted
  /-- Halted from RESET on, before any instruction (R460, R490). -/
  | haltedInReset
  /-- The dead cycle after BA goes low (R473). -/
  | dead
  /-- RESET is low: a read of $FFFE (R490, Figure 7). -/
  | inReset
deriving DecidableEq, Repr

/-- What a bus cycle does on the bus. -/
inductive BusEvent where
  /-- `MemRead(addr, 1)` with the byte that is read (R62). -/
  | read (a : Word) (v : Byte)
  /-- `MemWrite(addr, 1, v)` (R62). -/
  | write (a : Word) (v : Byte)
  /-- A dummy access, a discarded fetch or a read while RESET is low: a read whose byte the MPU ignores (R70, R71,
  R490). -/
  | ignoredRead (a : Word)
deriving DecidableEq, Repr

/-- A bus cycle: its kind, its access if it makes one that the spec gives, whether it belongs to a PSH or PUL
instruction, whether it lies between the Sync state and what follows it, and whether it is the last cycle of an
instruction. -/
structure BusCycle where
  kind : CycleKind
  event : Option BusEvent := none
  ofPushPull : Bool := false
  outOfSync : Bool := false
  last : Bool := false
deriving DecidableEq, Repr

/-! ### Cycles of one access -/

/-- The cycle of a `MemRead(addr, 1)`. -/
def State.readCycle (st : State) (k : CycleKind) (p : Config.Access) (a : Word) : BusCycle :=
  { kind := k, event := some (.read a (st.busRead p a)) }

/-- The cycle of a `MemWrite(addr, 1, v)`. -/
def writeCycle (k : CycleKind) (a : Word) (v : Byte) : BusCycle := { kind := k, event := some (.write a v) }

/-- The cycle of a fetch whose data is discarded (R71). -/
def discardedFetch (a : Word) : BusCycle := { kind := .discarded, event := some (.ignoredRead a) }

/-- A VMA cycle: the MPU puts $FFFF on the address bus (R70). -/
def vmaCycle (k : CycleKind) : BusCycle := { kind := k, event := some (.ignoredRead 0xFFFF#16) }

/-- Cycles of these kinds that make no access. -/
def plainCycles (kinds : List CycleKind) : List BusCycle := kinds.map fun k => { kind := k }

/-- An open number of cycles. -/
def gapCycles : BusCycle := { kind := .gap }

/-- The read of $FFFE while RESET is low (R490, Figure 7). -/
def resetLowCycle : BusCycle := { kind := .inReset, event := some (.ignoredRead resetVector) }

/-- Fetching bytes of an instruction at rising addresses (R64, R82). -/
def State.fetchRun (st : State) : Word → List CycleKind → List BusCycle
  | _, [] => []
  | a, k :: ks => st.readCycle k .fetch a :: st.fetchRun (a + 1#16) ks

/-- Pushing bytes below `sp` (R80). -/
def pushRun (k : CycleKind) : Word → List Byte → List BusCycle
  | _, [] => []
  | sp, v :: vs => writeCycle k (sp - 1#16) v :: pushRun k (sp - 1#16) vs

/-- Pulling so many bytes from `sp` on (R80). -/
def State.pullRun (st : State) (k : CycleKind) : Nat → Word → List BusCycle
  | 0, _ => []
  | n + 1, sp => st.readCycle k .data sp :: st.pullRun k n (sp + 1#16)

/-- The bytes that `State.pushRegs` pushes, the first one pushed first (R80, R81, R121). -/
def State.pushedBytes (st : State) (k : Stack) (pb : Byte) : List Byte :=
  (if pb.getLsbD 7 then [loByte st.pc, hiByte st.pc] else []) ++
  (if pb.getLsbD 6 then [loByte (st.otherSp k), hiByte (st.otherSp k)] else []) ++
  (if pb.getLsbD 5 then [loByte st.y, hiByte st.y] else []) ++
  (if pb.getLsbD 4 then [loByte st.x, hiByte st.x] else []) ++
  (if pb.getLsbD 3 then [st.dp] else []) ++
  (if pb.getLsbD 2 then [st.b] else []) ++
  (if pb.getLsbD 1 then [st.a] else []) ++
  (if pb.getLsbD 0 then [st.cc.toByte] else [])

/-! ### The cycles of an interrupt entry -/

/-- Both cycles of a vector fetch (R445). -/
def State.vectorFetch (st : State) (a : Word) : List BusCycle :=
  [st.readCycle .vectorHigh .data a, st.readCycle .vectorLow .data (a + 1#16)]

/-- The stacking of an event, all of the state or PC and CC, with E as it is stacked (R440, R442). -/
def State.stackingCycles (st : State) (entire : Bool) : List BusCycle :=
  let s1 : State := { st with cc := { st.cc with e := entire } }
  pushRun .stacking st.s (s1.pushedBytes .s (if entire then 0xFF#8 else 0x81#8))

/-- The state after the stacking of an event. -/
def State.stacked (st : State) (entire : Bool) : State := if entire then st.stackEntire else st.stackSubset

/-- From the stacking on: a VMA cycle, the vector fetch, a VMA cycle (R513). -/
def State.stackAndVector (st : State) (ev : Event) : List BusCycle :=
  st.stackingCycles ev.entire ++ [vmaCycle .dummy] ++ (st.stacked ev.entire).vectorFetch ev.vector ++
    [vmaCycle .dummy]

/-- The cycles of an interrupt entry at a boundary (R443, R513): two discarded fetches at PC, the stacking, a VMA
cycle, the vector fetch, a VMA cycle. For FIRQ the spec derives the pattern from that of IRQ (R513). -/
def State.entrySequence (st : State) (ev : Event) : List BusCycle :=
  [discardedFetch st.pc, discardedFetch st.pc] ++ st.stackAndVector ev

/-! ### The cycles of an instruction -/

/-- An operand in memory (R96, R97, R100). -/
inductive Operand where
  | dir (lo : Byte)
  | ext (addr : Word)
  | idx (m : Idx)

/-- The effective address of an operand. -/
def State.operandEA (st : State) : Operand → Word
  | .dir lo => st.directEA lo
  | .ext addr => addr
  | .idx m => st.indexedEA m

/-- The state in which the operation on an operand runs: any pointer register is adjusted first (R117). -/
def State.afterOperand (st : State) : Operand → State
  | .dir _ | .ext _ => st
  | .idx m => st.afterIndex m

/-- The address from which an indexed operand takes its effective address, where it does (R115). -/
def State.pointerAddr (st : State) : Idx → Option Word
  | .inc2 r true => some (st.ptr r)
  | .dec2 r true => some (st.ptr r - 2#16)
  | .zero r true => some (st.ptr r)
  | .accB r true => some (st.ptr r + sext8 st.b)
  | .accA r true => some (st.ptr r + sext8 st.a)
  | .off8 r true n => some (st.ptr r + sext8 n)
  | .off16 r true n => some (st.ptr r + n)
  | .accD r true => some (st.ptr r + st.d)
  | .pc8 true n => some (st.pc + sext8 n)
  | .pc16 true n => some (st.pc + n)
  | .extInd n => some n
  | .off5 _ _ | .inc1 _ | .dec1 _ | .inc2 _ false | .dec2 _ false | .zero _ false | .accB _ false | .accA _ false
  | .off8 _ false _ | .off16 _ false _ | .accD _ false | .pc8 false _ | .pc16 false _ => none

/-- The accesses of an instruction besides the fetch of its bytes. -/
inductive Access where
  /-- None. -/
  | ownBytes
  /-- None, but its last two bytes are a double-byte operand (R280). -/
  | operandWord
  /-- None, but its last two bytes are the address that JMP extended goes to (R470). -/
  | jumpExtended
  /-- The effective address alone is used, which an indirect one reads from memory (R313, R404). -/
  | address (m : Idx)
  /-- A byte is read (R150, R239). -/
  | readByte (o : Operand)
  /-- An accumulator is written (R172, R173). -/
  | writeByte (o : Operand) (r : Acc)
  /-- A word is read (R280). -/
  | readWord (o : Operand)
  /-- A 16-bit register is written (R280). -/
  | writeWord (o : Operand) (r : Reg16)
  /-- A byte is read, and the result written one VMA cycle later (R69, R200). -/
  | readModifyWrite (o : Operand) (op : Unary)
  /-- Registers are pushed (R321, R322). -/
  | push (k : Stack) (pb : Byte)
  /-- Registers are pulled (R323, R324). -/
  | pull (k : Stack) (pb : Byte)
  /-- The return address is pushed (R384, R385). -/
  | call
  /-- The return address is pushed by JSR (R405). -/
  | callAt (o : Operand)
  /-- The return address is pulled (R406). -/
  | ret
  /-- The frame is pulled, all of it or PC and CC only (R410). -/
  | interruptReturn
  /-- The entire state is stacked and a vector fetched (R407 to R409). -/
  | softwareInterrupt (ev : Event)
  /-- The entire state is stacked, after the AND into CC (R403). -/
  | stackAndWait (imm : Byte)
  /-- None, and the Sync state is entered (R411). -/
  | synchronize

/-- What each instruction accesses. -/
def accessOf : Instr → Access
  | .jmpDir _ | .lbra _ | .orcc _ | .andcc _ | .exg _ _ | .tfr _ _ | .bra _ | .brn _ | .bhi _ | .bls _ | .bcc _
  | .bcs _ | .bne _ | .beq _ | .bvc _ | .bvs _ | .bpl _ | .bmi _ | .bge _ | .blt _ | .bgt _ | .ble _
  | .subaImm _ | .cmpaImm _ | .sbcaImm _ | .andaImm _ | .bitaImm _ | .ldaImm _ | .eoraImm _ | .adcaImm _
  | .oraImm _ | .addaImm _ | .subbImm _ | .cmpbImm _ | .sbcbImm _ | .andbImm _ | .bitbImm _ | .ldbImm _
  | .eorbImm _ | .adcbImm _ | .orbImm _ | .addbImm _ | .lbrn _ | .lbhi _ | .lbls _ | .lbcc _ | .lbcs _ | .lbne _
  | .lbeq _ | .lbvc _ | .lbvs _ | .lbpl _ | .lbmi _ | .lbge _ | .lblt _ | .lbgt _ | .lble _ | .nop | .daa | .sex
  | .abx | .mul | .nega | .coma | .lsra | .rora | .asra | .asla | .rola | .deca | .inca | .tsta | .clra | .negb
  | .comb | .lsrb | .rorb | .asrb | .aslb | .rolb | .decb | .incb | .tstb | .clrb => .ownBytes
  | .subdImm _ | .cmpxImm _ | .ldxImm _ | .adddImm _ | .lddImm _ | .lduImm _ | .cmpdImm _ | .cmpyImm _
  | .ldyImm _ | .ldsImm _ | .cmpuImm _ | .cmpsImm _ => .operandWord
  | .negDir lo => .readModifyWrite (.dir lo) negOp
  | .comDir lo => .readModifyWrite (.dir lo) comOp
  | .lsrDir lo => .readModifyWrite (.dir lo) lsrOp
  | .rorDir lo => .readModifyWrite (.dir lo) rorOp
  | .asrDir lo => .readModifyWrite (.dir lo) asrOp
  | .aslDir lo => .readModifyWrite (.dir lo) aslOp
  | .rolDir lo => .readModifyWrite (.dir lo) rolOp
  | .decDir lo => .readModifyWrite (.dir lo) decOp
  | .incDir lo => .readModifyWrite (.dir lo) incOp
  | .tstDir lo => .readByte (.dir lo)
  | .clrDir lo => .readModifyWrite (.dir lo) clrOp
  | .lbsr _ => .call
  | .leax m => .address m
  | .leay m => .address m
  | .leas m => .address m
  | .leau m => .address m
  | .pshs pb => .push .s pb
  | .puls pb => .pull .s pb
  | .pshu pb => .push .u pb
  | .pulu pb => .pull .u pb
  | .cwai imm => .stackAndWait imm
  | .negIdx m => .readModifyWrite (.idx m) negOp
  | .comIdx m => .readModifyWrite (.idx m) comOp
  | .lsrIdx m => .readModifyWrite (.idx m) lsrOp
  | .rorIdx m => .readModifyWrite (.idx m) rorOp
  | .asrIdx m => .readModifyWrite (.idx m) asrOp
  | .aslIdx m => .readModifyWrite (.idx m) aslOp
  | .rolIdx m => .readModifyWrite (.idx m) rolOp
  | .decIdx m => .readModifyWrite (.idx m) decOp
  | .incIdx m => .readModifyWrite (.idx m) incOp
  | .tstIdx m => .readByte (.idx m)
  | .jmpIdx m => .address m
  | .clrIdx m => .readModifyWrite (.idx m) clrOp
  | .negExt addr => .readModifyWrite (.ext addr) negOp
  | .comExt addr => .readModifyWrite (.ext addr) comOp
  | .lsrExt addr => .readModifyWrite (.ext addr) lsrOp
  | .rorExt addr => .readModifyWrite (.ext addr) rorOp
  | .asrExt addr => .readModifyWrite (.ext addr) asrOp
  | .aslExt addr => .readModifyWrite (.ext addr) aslOp
  | .rolExt addr => .readModifyWrite (.ext addr) rolOp
  | .decExt addr => .readModifyWrite (.ext addr) decOp
  | .incExt addr => .readModifyWrite (.ext addr) incOp
  | .tstExt addr => .readByte (.ext addr)
  | .jmpExt _ => .jumpExtended
  | .clrExt addr => .readModifyWrite (.ext addr) clrOp
  | .bsr _ => .call
  | .subaDir lo => .readByte (.dir lo)
  | .cmpaDir lo => .readByte (.dir lo)
  | .sbcaDir lo => .readByte (.dir lo)
  | .subdDir lo => .readWord (.dir lo)
  | .andaDir lo => .readByte (.dir lo)
  | .bitaDir lo => .readByte (.dir lo)
  | .ldaDir lo => .readByte (.dir lo)
  | .staDir lo => .writeByte (.dir lo) .a
  | .eoraDir lo => .readByte (.dir lo)
  | .adcaDir lo => .readByte (.dir lo)
  | .oraDir lo => .readByte (.dir lo)
  | .addaDir lo => .readByte (.dir lo)
  | .cmpxDir lo => .readWord (.dir lo)
  | .jsrDir lo => .callAt (.dir lo)
  | .ldxDir lo => .readWord (.dir lo)
  | .stxDir lo => .writeWord (.dir lo) .x
  | .subaIdx m => .readByte (.idx m)
  | .cmpaIdx m => .readByte (.idx m)
  | .sbcaIdx m => .readByte (.idx m)
  | .subdIdx m => .readWord (.idx m)
  | .andaIdx m => .readByte (.idx m)
  | .bitaIdx m => .readByte (.idx m)
  | .ldaIdx m => .readByte (.idx m)
  | .staIdx m => .writeByte (.idx m) .a
  | .eoraIdx m => .readByte (.idx m)
  | .adcaIdx m => .readByte (.idx m)
  | .oraIdx m => .readByte (.idx m)
  | .addaIdx m => .readByte (.idx m)
  | .cmpxIdx m => .readWord (.idx m)
  | .jsrIdx m => .callAt (.idx m)
  | .ldxIdx m => .readWord (.idx m)
  | .stxIdx m => .writeWord (.idx m) .x
  | .subaExt addr => .readByte (.ext addr)
  | .cmpaExt addr => .readByte (.ext addr)
  | .sbcaExt addr => .readByte (.ext addr)
  | .subdExt addr => .readWord (.ext addr)
  | .andaExt addr => .readByte (.ext addr)
  | .bitaExt addr => .readByte (.ext addr)
  | .ldaExt addr => .readByte (.ext addr)
  | .staExt addr => .writeByte (.ext addr) .a
  | .eoraExt addr => .readByte (.ext addr)
  | .adcaExt addr => .readByte (.ext addr)
  | .oraExt addr => .readByte (.ext addr)
  | .addaExt addr => .readByte (.ext addr)
  | .cmpxExt addr => .readWord (.ext addr)
  | .jsrExt addr => .callAt (.ext addr)
  | .ldxExt addr => .readWord (.ext addr)
  | .stxExt addr => .writeWord (.ext addr) .x
  | .subbDir lo => .readByte (.dir lo)
  | .cmpbDir lo => .readByte (.dir lo)
  | .sbcbDir lo => .readByte (.dir lo)
  | .adddDir lo => .readWord (.dir lo)
  | .andbDir lo => .readByte (.dir lo)
  | .bitbDir lo => .readByte (.dir lo)
  | .ldbDir lo => .readByte (.dir lo)
  | .stbDir lo => .writeByte (.dir lo) .b
  | .eorbDir lo => .readByte (.dir lo)
  | .adcbDir lo => .readByte (.dir lo)
  | .orbDir lo => .readByte (.dir lo)
  | .addbDir lo => .readByte (.dir lo)
  | .lddDir lo => .readWord (.dir lo)
  | .stdDir lo => .writeWord (.dir lo) .d
  | .lduDir lo => .readWord (.dir lo)
  | .stuDir lo => .writeWord (.dir lo) .u
  | .subbIdx m => .readByte (.idx m)
  | .cmpbIdx m => .readByte (.idx m)
  | .sbcbIdx m => .readByte (.idx m)
  | .adddIdx m => .readWord (.idx m)
  | .andbIdx m => .readByte (.idx m)
  | .bitbIdx m => .readByte (.idx m)
  | .ldbIdx m => .readByte (.idx m)
  | .stbIdx m => .writeByte (.idx m) .b
  | .eorbIdx m => .readByte (.idx m)
  | .adcbIdx m => .readByte (.idx m)
  | .orbIdx m => .readByte (.idx m)
  | .addbIdx m => .readByte (.idx m)
  | .lddIdx m => .readWord (.idx m)
  | .stdIdx m => .writeWord (.idx m) .d
  | .lduIdx m => .readWord (.idx m)
  | .stuIdx m => .writeWord (.idx m) .u
  | .subbExt addr => .readByte (.ext addr)
  | .cmpbExt addr => .readByte (.ext addr)
  | .sbcbExt addr => .readByte (.ext addr)
  | .adddExt addr => .readWord (.ext addr)
  | .andbExt addr => .readByte (.ext addr)
  | .bitbExt addr => .readByte (.ext addr)
  | .ldbExt addr => .readByte (.ext addr)
  | .stbExt addr => .writeByte (.ext addr) .b
  | .eorbExt addr => .readByte (.ext addr)
  | .adcbExt addr => .readByte (.ext addr)
  | .orbExt addr => .readByte (.ext addr)
  | .addbExt addr => .readByte (.ext addr)
  | .lddExt addr => .readWord (.ext addr)
  | .stdExt addr => .writeWord (.ext addr) .d
  | .lduExt addr => .readWord (.ext addr)
  | .stuExt addr => .writeWord (.ext addr) .u
  | .cmpdDir lo => .readWord (.dir lo)
  | .cmpyDir lo => .readWord (.dir lo)
  | .ldyDir lo => .readWord (.dir lo)
  | .styDir lo => .writeWord (.dir lo) .y
  | .cmpdIdx m => .readWord (.idx m)
  | .cmpyIdx m => .readWord (.idx m)
  | .ldyIdx m => .readWord (.idx m)
  | .styIdx m => .writeWord (.idx m) .y
  | .cmpdExt addr => .readWord (.ext addr)
  | .cmpyExt addr => .readWord (.ext addr)
  | .ldyExt addr => .readWord (.ext addr)
  | .styExt addr => .writeWord (.ext addr) .y
  | .ldsDir lo => .readWord (.dir lo)
  | .stsDir lo => .writeWord (.dir lo) .s
  | .ldsIdx m => .readWord (.idx m)
  | .stsIdx m => .writeWord (.idx m) .s
  | .ldsExt addr => .readWord (.ext addr)
  | .stsExt addr => .writeWord (.ext addr) .s
  | .cmpuDir lo => .readWord (.dir lo)
  | .cmpsDir lo => .readWord (.dir lo)
  | .cmpuIdx m => .readWord (.idx m)
  | .cmpsIdx m => .readWord (.idx m)
  | .cmpuExt addr => .readWord (.ext addr)
  | .cmpsExt addr => .readWord (.ext addr)
  | .sync => .synchronize
  | .rts => .ret
  | .rti => .interruptReturn
  | .swi => .softwareInterrupt .swi
  | .swi2 => .softwareInterrupt .swi2
  | .swi3 => .softwareInterrupt .swi3

/-- The kinds of the bytes of an instruction after the first. -/
def operandKinds (a : Access) (n : Nat) : List CycleKind :=
  match a with
  | .operandWord => List.replicate (n - 3) .instrByte ++ [.dataHigh, .dataLow]
  | .jumpExtended => List.replicate (n - 3) .instrByte ++ [.pointerHigh, .pointerLow]
  | .ownBytes | .address _ | .readByte _ | .writeByte _ _ | .readWord _ | .writeWord _ _ | .readModifyWrite _ _
  | .push _ _ | .pull _ _ | .call | .callAt _ | .ret | .interruptReturn | .softwareInterrupt _ | .stackAndWait _
  | .synchronize => List.replicate (n - 1) .instrByte

/-- Each cycle as a group of its own. -/
def apart (cs : List BusCycle) : List (List BusCycle) := cs.map fun c => [c]

/-- The fetch of an instruction's bytes at rising addresses (R82), in groups of cycles that follow each other directly:
the first byte and in the next cycle the byte after it, which is discarded if the instruction has only one (R71), then
the others, which the spec does not place. -/
def fetchGroups : List BusCycle → Word → List (List BusCycle)
  | [], _ => []
  | [c], next => [[c, discardedFetch next]]
  | c :: d :: cs, _ => [c, d] :: apart cs

/-- The two reads of an indirect address (R66, R115). -/
def State.pointerGroups (st : State) (m : Idx) : List (List BusCycle) :=
  match st.pointerAddr m with
  | some a => [[st.readCycle .pointerHigh .pointer a], [st.readCycle .pointerLow .pointer (a + 1#16)]]
  | none => []

/-- The two reads of an indirect address of an operand. -/
def State.operandPointer (st : State) : Operand → List (List BusCycle)
  | .dir _ | .ext _ => []
  | .idx m => st.pointerGroups m

/-- The accesses of an instruction after its bytes, in the order of its rule (R82), in groups of cycles that follow each
other directly: the three cycles of a read-modify-write access (R200) and both cycles of a vector fetch (R445). For CLR
the spec takes the read from general knowledge (R69, R243). -/
def State.accessGroups (st : State) (a : Access) : List (List BusCycle) :=
  match a with
  | .ownBytes | .operandWord | .jumpExtended | .synchronize => []
  | .address m => st.pointerGroups m
  | .readByte o => st.operandPointer o ++ [[st.readCycle .byteRead .data (st.operandEA o)]]
  | .writeByte o r => st.operandPointer o ++ [[writeCycle .byteWrite (st.operandEA o) ((st.afterOperand o).acc r)]]
  | .readWord o =>
    st.operandPointer o ++
      [[st.readCycle .dataHigh .data (st.operandEA o)], [st.readCycle .dataLow .data (st.operandEA o + 1#16)]]
  | .writeWord o r =>
    let v := (st.afterOperand o).reg16 r
    st.operandPointer o ++
      [[writeCycle .dataHigh (st.operandEA o) (hiByte v)], [writeCycle .dataLow (st.operandEA o + 1#16) (loByte v)]]
  | .readModifyWrite o op =>
    let ea := st.operandEA o
    st.operandPointer o ++
      [[st.readCycle .rmwRead .data ea, vmaCycle .rmwModify,
        writeCycle .rmwWrite ea (op.result (st.read8 ea) st.cc)]]
  | .push k pb => apart (pushRun .stackByte (st.sp k) (st.pushedBytes k pb))
  | .pull k pb => apart (st.pullRun .stackByte (movedBytes pb) (st.sp k))
  | .call => apart (pushRun .stackByte st.s [loByte st.pc, hiByte st.pc])
  | .callAt o =>
    st.operandPointer o ++ apart (pushRun .stackByte (st.afterOperand o).s [loByte st.pc, hiByte st.pc])
  | .ret => apart (st.pullRun .stackByte 2 st.s)
  | .interruptReturn => apart (st.pullRun .stackByte (if (CC.ofByte (st.top8 .s)).e then 12 else 3) st.s)
  | .softwareInterrupt ev =>
    apart (st.stackingCycles ev.entire) ++ [(st.stacked ev.entire).vectorFetch ev.vector]
  | .stackAndWait imm => apart ((andCC imm st).stackingCycles true)

/-- The last cycle of an instruction whose cycles are not all placed, listed on its own, after a gap: which access it
makes is lost with the charts, and it may be the cycle listed before it (N7). So the model does not settle whether the
last cycle of SWI, SWI2 and SWI3 is the fetch of the vector's low byte or one after it (R407), nor whether that of SYNC
is one of the Sync state (N11). CWAI has its last cycle after the wait: its count takes in the vector fetch (R403). The
empty list leaves a gap before the wait. Log entry 26. -/
def lastCycle (a : Access) : List (List BusCycle) :=
  match a with
  | .softwareInterrupt _ => [[{ kind := .other, last := true }]]
  | .synchronize => [[{ kind := .other, last := true }], []]
  | .stackAndWait _ => [[]]
  | .ownBytes | .operandWord | .jumpExtended | .address _ | .readByte _ | .writeByte _ _ | .readWord _
  | .writeWord _ _ | .readModifyWrite _ _ | .push _ _ | .pull _ _ | .call | .callAt _ | .ret | .interruptReturn =>
    [[{ kind := .normal, last := true }]]

/-- All the cycles of an instruction, the last of them marked. -/
def wholeInstr : List BusCycle → List BusCycle
  | [] => []
  | [c] => [{ c with last := true }]
  | c :: cs => c :: wholeInstr cs

/-- The cycles marked as those of a PSH or PUL instruction, where it is one. -/
def markPushPull (a : Access) (cs : List BusCycle) : List BusCycle :=
  match a with
  | .push _ _ | .pull _ _ => cs.map fun c => { c with ofPushPull := true }
  | .ownBytes | .operandWord | .jumpExtended | .address _ | .readByte _ | .writeByte _ _ | .readWord _
  | .writeWord _ _ | .readModifyWrite _ _ | .call | .callAt _ | .ret | .interruptReturn | .softwareInterrupt _
  | .stackAndWait _ | .synchronize => cs

/-- The cycles of an instruction of `n` bytes, the ignored prebytes among them, in the state it is executed in, with PC
past it. The spec has the charts of LBSR and of DEC extended (R385, R200; 95_test_vectors.md 2.1 and 2.2). Of the others
it gives the accesses and the count: where the count leaves room for no further cycle (R511, and one for each ignored
prebyte by D19), those are all of them; elsewhere a gap stands wherever the cycles are not placed (N7). -/
def instrBusCycles (i : Instr) (n : Nat) (st : State) : List BusCycle :=
  let a := accessOf i
  let bytes := st.fetchRun (st.pc - BitVec.ofNat 16 n) (.opcodeFetch :: operandKinds a n)
  let accesses := st.accessGroups a
  match i with
  | .lbsr off =>
    wholeInstr (bytes ++ [vmaCycle .dummy, vmaCycle .dummy, discardedFetch (st.pc + off), vmaCycle .dummy] ++
      accesses.flatten)
  | .decExt _ => wholeInstr (bytes ++ [vmaCycle .dummy] ++ accesses.flatten)
  | _ =>
    let groups := fetchGroups bytes st.pc ++ accesses
    markPushPull a
      (if (instrCycles i st).plus (n - (encode i).length) = .exactly groups.flatten.length then
        wholeInstr groups.flatten
      else [gapCycles].intercalate (groups ++ lastCycle a))

/-! ### The cycles of a step -/

/-- The cycles of the instruction that the state fetches; none where there is no instruction. -/
def State.fetchedBusCycles (st : State) : List BusCycle :=
  match st.fetchInstr with
  | .next (i, s2) => instrBusCycles i st.fetchedLength s2
  | .fault _ | .refused _ => []

/-- The dead cycle before the MPU acquires a bus that it had released (R473). -/
def deadCycle : BusCycle := { kind := .dead }

/-- The cycles of a step that enters the InReset state or stays in it: a read of $FFFE whose byte is ignored, as Figure
7 shows while RESET is low (R490). Where the bus was released, the dead cycle of R473 comes first. One such read a step
stands for as many as the line lasts. Log entry 26. -/
def State.resetLowCycles (st : State) : List BusCycle :=
  (if st.run = .halted ∨ st.run = .sync then [deadCycle] else []) ++ [resetLowCycle]

/-- The cycles of a step at a boundary (R447); after a halt BA goes low and a dead cycle comes first (R473). -/
def State.boundaryCycles (st : State) (p : Sample) : List BusCycle :=
  if p.reset then st.resetLowCycles
  else if p.halt then plainCycles [if st.resetHalt then .haltedInReset else .halted]
  else
    (if st.run = .halted then [deadCycle] else []) ++
      match (st.latchNmi p).request p with
      | some ev => st.entrySequence ev
      | none => { st.latchNmi p with run := .running, resetHalt := false }.fetchedBusCycles

/-- The cycles marked as those between the Sync state and what follows it. -/
def outOfSync (cs : List BusCycle) : List BusCycle := cs.map fun c => { c with outOfSync := true }

/-- The cycles of a step in the Sync state (R448). Its end begins with a gap, since N11 gives no positions there; then
comes the dead cycle of R473, as BA goes low. LIC is still high in both (R411, R472). Where the interrupt is accepted,
LIC remains high in the cycle with which interrupt processing starts (R411, Figure 17), the cycles from there to the
stacking are left open by another gap, with LIC still high, and the stacking and the vector fetch follow each other as
at a boundary (R513). Where the interrupt is masked, the cycle of Figure 17, in which LIC goes low, is the opcode fetch
with which the next step begins, so that it follows the dead cycle. The place of the dead cycle, directly before the
cycle of Figure 17, and the order from the stacking on are the model's choice. Log entries 26 and 31. -/
def State.syncCycles (st : State) (p : Sample) : List BusCycle :=
  if p.reset then st.resetLowCycles
  else if p.halt then []
  else if (st.latchNmi p).nmiPending || p.firq || p.irq then
    outOfSync [gapCycles, deadCycle] ++
      match (st.latchNmi p).request ((st.latchNmi p).synchronized p) with
      | some ev => outOfSync [{ kind := .syncAccepted }, gapCycles] ++ st.stackAndVector ev
      | none => []
  else plainCycles [.syncWait]

/-- The cycles of a step in the CwaiWait state: nothing is stacked again (R449), the vector is fetched, and CWAI ends
with its last cycle, listed on its own as in `lastCycle`: it may be the fetch of the vector's low byte (R403, R472). -/
def State.cwaiCycles (st : State) (p : Sample) : List BusCycle :=
  if p.reset then st.resetLowCycles
  else if p.halt then []
  else
    match (st.latchNmi p).request p with
    | some ev => [gapCycles] ++ st.vectorFetch ev.vector ++ [gapCycles, { kind := .other, last := true }]
    | none => [vmaCycle .cwaiWait]

/-- The cycles of a step in the InReset state: the RESET vector is fetched after the release of the line, then comes
one VMA cycle (R490), and the halt if HALT is low (R460). -/
def State.resetCycles (st : State) (p : Sample) : List BusCycle :=
  if p.reset then st.resetLowCycles
  else
    st.vectorFetch resetVector ++ [vmaCycle .dummy] ++ (if p.halt then plainCycles [.haltedInReset] else [])

/-- The cycles of the next step in their order, gaps among them. -/
def State.busCycles (st : State) : List BusCycle :=
  match st.run with
  | .running | .halted => st.beginStep.boundaryCycles st.sample
  | .sync => st.beginStep.syncCycles st.sample
  | .cwaiWait => st.beginStep.cwaiCycles st.sample
  | .inReset => st.beginStep.resetCycles st.sample

/-- The cycles of the next `n` steps; a run that stops lists no more. -/
def State.runCycles : Nat → State → List BusCycle
  | 0, _ => []
  | n + 1, st =>
    st.busCycles ++
      match step st with
      | .next t => t.runCycles n
      | .fault _ | .refused _ => []

end Sys2Proof.Machine
end

