-- ==== Sys2Proof/Machine/History.lean ====
section
/-! DEFINITION. The event history of a run (20_memory.md R82): each MemRead and MemWrite with its address and byte, in
order, and under the parameter `model_dummy_reads` the dummy accesses, discarded fetches and reads while RESET is low
(R70, R71, R490, R499, D11). It stands beside the step. Log entry 37. -/

namespace Sys2Proof.Machine

/-- A read whose byte the MPU ignores. -/
def BusEvent.isIgnored : BusEvent → Bool
  | .ignoredRead _ => true
  | .read _ _ | .write _ _ => false

/-- The accesses of a list of cycles, in their order. -/
def eventsOf (cs : List BusCycle) : List BusEvent := cs.filterMap BusCycle.event

/-- Where the next step, which leads to `t`, may read a byte that it ignores: at the addresses of the cycles that the
spec places, $FFFE while RESET is low among them (R490); and at those of R499 and R71, for the cycles that it does not
place: $FFFF, PC and the byte after the instruction, and the address where execution goes on. -/
def State.ignoredAddrs (st t : State) : List Word :=
  (if st.busCycles.any fun c => c.kind == .gap then
    [0xFFFF#16, st.pc, st.pc + BitVec.ofNat 16 st.beginStep.fetchedLength, t.pc]
  else []) ++
    (eventsOf st.busCycles).filterMap fun e : BusEvent =>
      match e with
      | .ignoredRead a => some a
      | .read _ _ | .write _ _ => none

/-- The events of the next step (R82). With `dummyReads`, the parameter `model_dummy_reads`, the ignored reads that the
spec places are events too, and the history is refused where one of them, placed or not, may meet a device, since it
cannot be placed exactly and could have a side effect there (D11). A step that stops has no events. -/
def State.events (dummyReads : Bool) (st : State) : Host.Outcome (List BusEvent) Fault Refusal :=
  match step st with
  | .next t =>
    if dummyReads && (st.ignoredAddrs t).any fun a => st.kindAt a == .device then .refused .ignoredReadOfDevice
    else .next ((eventsOf st.busCycles).filter fun e => dummyReads || !e.isIgnored)
  | .fault f => .fault f
  | .refused r => .refused r

/-- The events of the next `n` steps. -/
def State.history (dummyReads : Bool) : Nat → State → Host.Outcome (List BusEvent) Fault Refusal
  | 0, _ => .next []
  | n + 1, st =>
    match st.events dummyReads, step st with
    | .next es, .next t =>
      match t.history dummyReads n with
      | .next rest => .next (es ++ rest)
      | .fault f => .fault f
      | .refused r => .refused r
    | .fault f, _ => .fault f
    | _, .fault f => .fault f
    | .refused r, _ => .refused r
    | _, .refused r => .refused r

end Sys2Proof.Machine
end

