-- ==== Sys2Proof/Laws/History.lean ====
section
/-! SUPPORT. The event history (20_memory.md R82) agrees with the machine: the write events of a step, replayed in their
order, give the memory that the step leaves. -/

namespace Sys2Proof.Laws

open Sys2Proof.Machine

/-- The memory after the write events of a list. -/
def replay (p : Platform) : Memory → List BusEvent → Memory
  | m, [] => m
  | m, .write a v :: es => replay p (m.store p a v) es
  | m, .read _ _ :: es => replay p m es
  | m, .ignoredRead _ :: es => replay p m es

theorem replay_append (p : Platform) (m : Memory) (es fs : List BusEvent) :
    replay p m (es ++ fs) = replay p (replay p m es) fs := by
  induction es generalizing m with
  | nil => rfl
  | cons e es ih => cases e <;> exact ih _

/-! ### The accesses of a list of cycles -/

@[simp] theorem eventsOf_nil : eventsOf [] = [] := rfl

@[simp] theorem eventsOf_append (cs ds : List BusCycle) : eventsOf (cs ++ ds) = eventsOf cs ++ eventsOf ds := by
  simp [eventsOf]

@[simp] theorem eventsOf_plainCycles (ks : List CycleKind) : eventsOf (plainCycles ks) = [] := by
  induction ks with
  | nil => rfl
  | cons k ks ih => exact ih

@[simp] theorem eventsOf_wholeInstr (cs : List BusCycle) : eventsOf (wholeInstr cs) = eventsOf cs := by
  induction cs using wholeInstr.induct with
  | case1 => rfl
  | case2 c => rfl
  | case3 c cs h ih => simpa [wholeInstr, eventsOf, List.filterMap_cons] using by rw [← eventsOf, ← eventsOf, ih]

@[simp] theorem eventsOf_markPushPull (a : Access) (cs : List BusCycle) :
    eventsOf (markPushPull a cs) = eventsOf cs := by
  cases a <;> simp [markPushPull, eventsOf, List.filterMap_map]

@[simp] theorem flatten_apart (cs : List BusCycle) : (apart cs).flatten = cs := by
  induction cs with
  | nil => rfl
  | cons c cs ih => simpa [apart] using ih

/-- Gaps make no access. -/
theorem eventsOf_intercalate (gs : List (List BusCycle)) :
    eventsOf ([gapCycles].intercalate gs) = eventsOf gs.flatten := by
  induction gs with
  | nil => rfl
  | cons g gs ih =>
    cases gs with
    | nil => simp [List.intercalate]
    | cons h hs =>
      have e : [gapCycles].intercalate (g :: h :: hs) = g ++ ([gapCycles] ++ [gapCycles].intercalate (h :: hs)) := by
        simp [List.intercalate]
      rw [e, eventsOf_append, eventsOf_append, ih]
      simp [eventsOf, gapCycles]

@[simp] theorem eventsOf_lastCycle (a : Access) : eventsOf (lastCycle a).flatten = [] := by cases a <;> rfl

@[simp] theorem replay_fetchRun (p : Platform) (m : Memory) (st : State) (a : Word) (ks : List CycleKind) :
    replay p m (eventsOf (st.fetchRun a ks)) = m := by
  induction ks generalizing a with
  | nil => rfl
  | cons k ks ih => exact ih _

@[simp] theorem replay_pullRun (p : Platform) (m : Memory) (st : State) (k : CycleKind) (n : Nat) (sp : Word) :
    replay p m (eventsOf (st.pullRun k n sp)) = m := by
  induction n generalizing sp with
  | zero => rfl
  | succ n ih => exact ih _

/-- The byte after a one-byte instruction is read, not written. -/
theorem replay_fetchGroups (p : Platform) (m : Memory) (cs : List BusCycle) (next : Word) :
    replay p m (eventsOf (fetchGroups cs next).flatten) = replay p m (eventsOf cs) := by
  match cs with
  | [] => rfl
  | [c] =>
    have e : (fetchGroups [c] next).flatten = [c] ++ [discardedFetch next] := rfl
    rw [e, eventsOf_append, replay_append]
    rfl
  | c :: d :: cs => simp [fetchGroups, eventsOf]

@[simp] theorem replay_operandPointer (p : Platform) (m : Memory) (st : State) (o : Operand) :
    replay p m (eventsOf (st.operandPointer o).flatten) = m := by
  cases o with
  | dir lo => rfl
  | ext addr => rfl
  | idx i =>
    simp only [State.operandPointer, State.pointerGroups]
    split <;> rfl

/-! ### Pushes -/

/-- A push of registers is a push of its bytes, one after the other (R80, R81). -/
theorem pushRegs_eq (st : State) (k : Stack) (pb : Byte) :
    st.pushRegs k pb = (st.pushedBytes k pb).foldl (fun s v => s.push8 k v) st := by
  have h : ∀ (c : Prop) [Decidable c] (s : State) (vs : List Byte),
      (if c then vs else []).foldl (fun s v => s.push8 k v) s =
        if c then vs.foldl (fun s v => s.push8 k v) s else s := by
    intro c _ s vs
    split <;> rfl
  simp only [State.pushedBytes, List.foldl_append, h]
  rfl

theorem mem_foldl_push8 (kind : CycleKind) (k : Stack) (vs : List Byte) (st : State) :
    (vs.foldl (fun s v => s.push8 k v) st).mem =
      replay st.platform st.mem (eventsOf (pushRun kind (st.sp k) vs)) := by
  induction vs generalizing st with
  | nil => rfl
  | cons v vs ih =>
    rw [List.foldl_cons, ih]
    cases k <;> rfl

theorem mem_pushRegs (kind : CycleKind) (st : State) (k : Stack) (pb : Byte) :
    (st.pushRegs k pb).mem = replay st.platform st.mem (eventsOf (pushRun kind (st.sp k) (st.pushedBytes k pb))) := by
  rw [pushRegs_eq, mem_foldl_push8 kind]

/-- The stacking cycles of an event write what its stacking leaves (R440, R442). -/
theorem mem_stacked (st : State) (entire : Bool) :
    (st.stacked entire).mem = replay st.platform st.mem (eventsOf (st.stackingCycles entire)) := by
  cases entire <;>
    simp only [State.stacked, State.stackEntire, State.stackSubset, State.stackingCycles, if_true, if_false,
      Bool.false_eq_true, mem_pushRegs .stacking] <;> rfl

@[simp] theorem mem_pullRegs (st : State) (k : Stack) (pb : Byte) : (st.pullRegs k pb).mem = st.mem := by
  have h : ∀ (c : Prop) [Decidable c] (s t : State), (if c then s else t).mem = if c then s.mem else t.mem := by
    intro c _ s t
    split <;> rfl
  simp [State.pullRegs, h]

/-! ### Every instruction -/

/-- The write events of an instruction are those of its accesses. -/
theorem replay_instrBusCycles (p : Platform) (m : Memory) (i : Instr) (n : Nat) (st : State) :
    replay p m (eventsOf (instrBusCycles i n st)) = replay p m (eventsOf (st.accessGroups (accessOf i)).flatten) := by
  have h : ∀ c : Prop, ∀ _ : Decidable c, replay p m (eventsOf (markPushPull (accessOf i)
      (if c then wholeInstr (fetchGroups (st.fetchRun (st.pc - BitVec.ofNat 16 n)
          (.opcodeFetch :: operandKinds (accessOf i) n)) st.pc ++ st.accessGroups (accessOf i)).flatten
        else [gapCycles].intercalate (fetchGroups (st.fetchRun (st.pc - BitVec.ofNat 16 n)
          (.opcodeFetch :: operandKinds (accessOf i) n)) st.pc ++ st.accessGroups (accessOf i) ++
            lastCycle (accessOf i))))) =
      replay p m (eventsOf (st.accessGroups (accessOf i)).flatten) := by
    intro c _
    split <;> simp [eventsOf_intercalate, replay_append, replay_fetchGroups]
  have hv : ∀ m', replay p m' (eventsOf [vmaCycle .dummy]) = m' := fun _ => rfl
  unfold instrBusCycles
  split
  · simp only [eventsOf_wholeInstr, eventsOf_append, replay_append, replay_fetchRun]
    rfl
  · simp only [eventsOf_wholeInstr, eventsOf_append, replay_append, replay_fetchRun, hv]
  · exact h _ _


/-! The memory that each kind of access leaves. -/

@[simp] theorem replay_address (p : Platform) (m : Memory) (st : State) (i : Idx) :
    replay p m (eventsOf (st.accessGroups (.address i)).flatten) = m := replay_operandPointer p m st (.idx i)

@[simp] theorem replay_readByte (p : Platform) (m : Memory) (st : State) (o : Operand) :
    replay p m (eventsOf (st.accessGroups (.readByte o)).flatten) = m := by
  simp only [State.accessGroups, List.flatten_append, eventsOf_append, replay_append, replay_operandPointer]
  rfl

@[simp] theorem replay_readWord (p : Platform) (m : Memory) (st : State) (o : Operand) :
    replay p m (eventsOf (st.accessGroups (.readWord o)).flatten) = m := by
  simp only [State.accessGroups, List.flatten_append, eventsOf_append, replay_append, replay_operandPointer]
  rfl

@[simp] theorem replay_writeByte (p : Platform) (m : Memory) (st : State) (o : Operand) (r : Acc) :
    replay p m (eventsOf (st.accessGroups (.writeByte o r)).flatten) =
      m.store p (st.operandEA o) ((st.afterOperand o).acc r) := by
  simp only [State.accessGroups, List.flatten_append, eventsOf_append, replay_append, replay_operandPointer]
  rfl

@[simp] theorem replay_writeWord (p : Platform) (m : Memory) (st : State) (o : Operand) (r : Reg16) :
    replay p m (eventsOf (st.accessGroups (.writeWord o r)).flatten) =
      (m.store p (st.operandEA o) (hiByte ((st.afterOperand o).reg16 r))).store p (st.operandEA o + 1#16)
        (loByte ((st.afterOperand o).reg16 r)) := by
  simp only [State.accessGroups, List.flatten_append, eventsOf_append, replay_append, replay_operandPointer]
  rfl

@[simp] theorem replay_readModifyWrite (p : Platform) (m : Memory) (st : State) (o : Operand) (op : Unary) :
    replay p m (eventsOf (st.accessGroups (.readModifyWrite o op)).flatten) =
      m.store p (st.operandEA o) (op.result (st.read8 (st.operandEA o)) st.cc) := by
  simp only [State.accessGroups, List.flatten_append, eventsOf_append, replay_append, replay_operandPointer]
  rfl

@[simp] theorem replay_callAt (p : Platform) (m : Memory) (st : State) (o : Operand) :
    replay p m (eventsOf (st.accessGroups (.callAt o)).flatten) =
      (m.store p ((st.afterOperand o).s - 1#16) (loByte st.pc)).store p ((st.afterOperand o).s - 1#16 - 1#16)
        (hiByte st.pc) := by
  simp only [State.accessGroups, List.flatten_append, eventsOf_append, replay_append, replay_operandPointer,
    flatten_apart]
  rfl

/-! ### Every instruction -/

/-- An operation run on the effective address of an operand: `atDir`, `atExt` and `atIdx` in one. -/
def atOperand (op : Word → State → State) (o : Operand) (st : State) : State :=
  op (st.operandEA o) (st.afterOperand o)

@[simp] theorem afterOperand_mem (st : State) (o : Operand) : (st.afterOperand o).mem = st.mem := by
  cases o <;> simp [State.afterOperand]

@[simp] theorem afterOperand_platform (st : State) (o : Operand) : (st.afterOperand o).platform = st.platform := by
  cases o <;> simp [State.afterOperand]

@[simp] theorem afterOperand_cc (st : State) (o : Operand) : (st.afterOperand o).cc = st.cc := by
  cases o <;> simp [State.afterOperand]

@[simp] theorem afterOperand_pc (st : State) (o : Operand) : (st.afterOperand o).pc = st.pc := by
  cases o <;> simp [State.afterOperand]

@[simp] theorem read8_afterOperand (st : State) (o : Operand) (q : Word) : (st.afterOperand o).read8 q =
    st.read8 q := by
  cases o <;> simp [State.afterOperand]

theorem mem_next {s t : State} (h : (Host.Outcome.next s : Host.Outcome State Fault Refusal) = .next t) {m : Memory}
    (hm : s.mem = m) : t.mem = m := by
  injection h with h
  rw [← h, hm]

/-- The memory after an instruction is what its write events leave. -/
def Replays (st t : State) (a : Access) : Prop :=
  t.mem = replay st.platform st.mem (eventsOf (st.accessGroups a).flatten)

variable {st t : State}

theorem replays_readByte {op : Byte → State → State} {o : Operand}
    (h : (Host.Outcome.next (atOperand (load8 op) o st) : Host.Outcome State Fault Refusal) = .next t)
    (hop : ∀ v s, (op v s).mem = s.mem) : Replays st t (.readByte o) := by
  rw [Replays, replay_readByte]
  exact mem_next h ((hop _ _).trans (afterOperand_mem st o))

theorem replays_readWord {op : Word → State → State} {o : Operand}
    (h : (Host.Outcome.next (atOperand (load16 op) o st) : Host.Outcome State Fault Refusal) = .next t)
    (hop : ∀ v s, (op v s).mem = s.mem) : Replays st t (.readWord o) := by
  rw [Replays, replay_readWord]
  exact mem_next h ((hop _ _).trans (afterOperand_mem st o))

theorem replays_address {op : Word → State → State} {m : Idx}
    (h : (Host.Outcome.next (atOperand op (.idx m) st) : Host.Outcome State Fault Refusal) = .next t)
    (hop : ∀ v s, (op v s).mem = s.mem) : Replays st t (.address m) := by
  rw [Replays, replay_address]
  exact mem_next h ((hop _ _).trans (afterOperand_mem st (.idx m)))

theorem replays_writeByte {o : Operand} {r : Acc}
    (h : (Host.Outcome.next (atOperand (st8 r) o st) : Host.Outcome State Fault Refusal) = .next t) :
    Replays st t (.writeByte o r) := by
  rw [Replays, replay_writeByte]
  exact mem_next h (by simp [atOperand, st8])

theorem replays_writeWord {o : Operand} {r : Reg16}
    (h : (Host.Outcome.next (atOperand (st16 r) o st) : Host.Outcome State Fault Refusal) = .next t) :
    Replays st t (.writeWord o r) := by
  rw [Replays, replay_writeWord]
  exact mem_next h (by simp [atOperand, st16])

theorem replays_readModifyWrite {o : Operand} {op : Unary}
    (h : (Host.Outcome.next (atOperand (modifyMem op) o st) : Host.Outcome State Fault Refusal) = .next t)
    (hop : ∀ v s, (op.flags v s).mem = s.mem) : Replays st t (.readModifyWrite o op) := by
  rw [Replays, replay_readModifyWrite]
  exact mem_next h (by simp [atOperand, modifyMem, hop])

theorem mem_call (target : Word) (s : State) :
    (call target s).mem =
      (s.mem.store s.platform (s.s - 1#16) (loByte s.pc)).store s.platform (s.s - 1#16 - 1#16) (hiByte s.pc) := rfl

theorem replays_callAt {o : Operand}
    (h : (Host.Outcome.next (atOperand call o st) : Host.Outcome State Fault Refusal) = .next t) :
    Replays st t (.callAt o) := by
  rw [Replays, replay_callAt]
  exact mem_next h (by simp [atOperand, mem_call])

theorem replays_call {target : Word}
    (h : (Host.Outcome.next (call target st) : Host.Outcome State Fault Refusal) = .next t) :
    Replays st t .call :=
  mem_next h rfl

/-- An instruction that makes no access but the fetch of its bytes, or only pulls, leaves memory as it is. -/
theorem replays_of_mem_eq {a : Access} (h : t.mem = st.mem)
    (ha : a = .ownBytes ∨ a = .operandWord ∨ a = .jumpExtended ∨ a = .synchronize ∨ a = .ret ∨
      a = .interruptReturn ∨ ∃ k pb, a = .pull k pb) : Replays st t a := by
  rcases ha with rfl | rfl | rfl | rfl | rfl | rfl | ⟨k, pb, rfl⟩ <;>
    simp [Replays, State.accessGroups, h, replay]

theorem replays_push {k : Stack} {pb : Byte}
    (h : (Host.Outcome.next (st.pushRegs k pb) : Host.Outcome State Fault Refusal) = .next t) :
    Replays st t (.push k pb) := by
  rw [Replays, State.accessGroups, flatten_apart]
  exact mem_next h (mem_pushRegs .stackByte st k pb)

theorem replays_softwareInterrupt {ev : Event}
    (h : (Host.Outcome.next (st.takeException ev) : Host.Outcome State Fault Refusal) = .next t) :
    Replays st t (.softwareInterrupt ev) := by
  simp only [Replays, State.accessGroups, List.flatten_append, eventsOf_append, replay_append, flatten_apart,
    ← mem_stacked]
  exact mem_next h rfl

theorem replays_stackAndWait {imm : Byte}
    (h : (Host.Outcome.next (andCCAndWait imm st) : Host.Outcome State Fault Refusal) = .next t) :
    Replays st t (.stackAndWait imm) := by
  have e := mem_stacked (andCC imm st) true
  simp only [Replays, State.accessGroups, flatten_apart]
  exact mem_next h e

theorem mem_cmp16 (r : Reg16) (v : Word) (s : State) : (cmp16 r v s).mem = s.mem := by simp [cmp16]

theorem mem_subFromD (v : Word) (s : State) : (subFromD v s).mem = s.mem := by simp [subFromD]

theorem mem_modifyAcc {op : Unary} (hop : ∀ v s, (op.flags v s).mem = s.mem) (r : Acc) (s : State) :
    (modifyAcc op r s).mem = s.mem := by
  simp [modifyAcc, hop]

theorem mem_branch (k : Cond) (target : Word) (st : State) : (branch k target st).mem = st.mem := by
  unfold branch
  split <;> rfl

theorem mem_writeCode {c : RegCode} {v : RegValue} (h : st.writeCode c v = some t) : t.mem = st.mem := by
  cases c <;> cases v <;> simp only [State.writeCode, Option.some.injEq, reduceCtorEq] at h <;> subst h <;> simp

theorem mem_transfer {src dst : RegCode} (h : transfer src dst st = .next t) : t.mem = st.mem := by
  unfold transfer at h
  split at h
  · next hw => exact mem_next h (mem_writeCode hw)
  · cases h

theorem mem_exchange {src dst : RegCode} (h : exchange src dst st = .next t) : t.mem = st.mem := by
  unfold exchange at h
  split at h
  · next hw =>
    split at h
    · next hw' => exact mem_next h ((mem_writeCode hw').trans (mem_writeCode hw))
    · cases h
  · cases h

/-- The write events of an instruction, replayed in their order, give the memory that it leaves. -/
theorem replays_exec {i : Instr} (h : exec i st = .next t) : Replays st t (accessOf i) := by
  cases i
  case negDir | comDir | lsrDir | rorDir | asrDir | aslDir | rolDir | decDir | incDir | clrDir | negIdx | comIdx |
    lsrIdx | rorIdx | asrIdx | aslIdx | rolIdx | decIdx | incIdx | clrIdx | negExt | comExt | lsrExt | rorExt |
    asrExt | aslExt | rolExt | decExt | incExt | clrExt =>
    exact replays_readModifyWrite h fun _ _ => rfl
  case tstDir | tstIdx | tstExt | subaDir | cmpaDir | sbcaDir | andaDir | bitaDir | ldaDir | eoraDir | adcaDir |
    oraDir | addaDir | subaIdx | cmpaIdx | sbcaIdx | andaIdx | bitaIdx | ldaIdx | eoraIdx | adcaIdx | oraIdx |
    addaIdx | subaExt | cmpaExt | sbcaExt | andaExt | bitaExt | ldaExt | eoraExt | adcaExt | oraExt | addaExt |
    subbDir | cmpbDir | sbcbDir | andbDir | bitbDir | ldbDir | eorbDir | adcbDir | orbDir | addbDir | subbIdx |
    cmpbIdx | sbcbIdx | andbIdx | bitbIdx | ldbIdx | eorbIdx | adcbIdx | orbIdx | addbIdx | subbExt | cmpbExt |
    sbcbExt | andbExt | bitbExt | ldbExt | eorbExt | adcbExt | orbExt | addbExt =>
    exact replays_readByte h fun _ _ => rfl
  case jmpDir | orcc | andcc | subaImm | cmpaImm | sbcaImm | andaImm | bitaImm | ldaImm | eoraImm | adcaImm | oraImm |
    addaImm | subbImm | cmpbImm | sbcbImm | andbImm | bitbImm | ldbImm | eorbImm | adcbImm | orbImm | addbImm | nop |
    sex | abx | tsta | tstb =>
    exact replays_of_mem_eq (mem_next h rfl) (.inl rfl)
  case lbra | bra | brn | bhi | bls | bcc | bcs | bne | beq | bvc | bvs | bpl | bmi | bge | blt | bgt | ble | lbrn |
    lbhi | lbls | lbcc | lbcs | lbne | lbeq | lbvc | lbvs | lbpl | lbmi | lbge | lblt | lbgt | lble =>
    exact replays_of_mem_eq (mem_next h (mem_branch _ _ _)) (.inl rfl)
  case lbsr | bsr =>
    exact replays_call h
  case exg =>
    exact replays_of_mem_eq (mem_exchange h) (.inl rfl)
  case tfr =>
    exact replays_of_mem_eq (mem_transfer h) (.inl rfl)
  case leax | leay | leas | leau =>
    exact replays_address h fun v s => by simp [leaZ, leaNoFlags]
  case pshs | pshu =>
    exact replays_push h
  case puls | pulu =>
    exact replays_of_mem_eq (mem_next h (mem_pullRegs _ _ _)) (.inr (.inr (.inr (.inr (.inr (.inr ⟨_, _, rfl⟩))))))
  case cwai =>
    exact replays_stackAndWait h
  case jmpIdx =>
    exact replays_address h fun _ _ => rfl
  case jmpExt =>
    exact replays_of_mem_eq (mem_next h rfl) (.inr (.inr (.inl rfl)))
  case subdImm =>
    exact replays_of_mem_eq (mem_next h (mem_subFromD _ _)) (.inr (.inl rfl))
  case cmpxImm | cmpdImm | cmpyImm | cmpuImm | cmpsImm =>
    exact replays_of_mem_eq (mem_next h (mem_cmp16 _ _ _)) (.inr (.inl rfl))
  case ldxImm | adddImm | lddImm | lduImm | ldyImm | ldsImm =>
    exact replays_of_mem_eq (mem_next h rfl) (.inr (.inl rfl))
  case subdDir | subdIdx | subdExt =>
    exact replays_readWord h mem_subFromD
  case staDir | staIdx | staExt | stbDir | stbIdx | stbExt =>
    exact replays_writeByte h
  case cmpxDir | cmpxIdx | cmpxExt | cmpdDir | cmpyDir | cmpdIdx | cmpyIdx | cmpdExt | cmpyExt | cmpuDir | cmpsDir |
    cmpuIdx | cmpsIdx | cmpuExt | cmpsExt =>
    exact replays_readWord h (mem_cmp16 _)
  case jsrDir | jsrIdx | jsrExt =>
    exact replays_callAt h
  case ldxDir | ldxIdx | ldxExt | adddDir | lddDir | lduDir | adddIdx | lddIdx | lduIdx | adddExt | lddExt | lduExt |
    ldyDir | ldyIdx | ldyExt | ldsDir | ldsIdx | ldsExt =>
    exact replays_readWord h fun _ _ => rfl
  case stxDir | stxIdx | stxExt | stdDir | stuDir | stdIdx | stuIdx | stdExt | stuExt | styDir | styIdx | styExt |
    stsDir | stsIdx | stsExt =>
    exact replays_writeWord h
  case sync =>
    exact replays_of_mem_eq (mem_next h rfl) (.inr (.inr (.inr (.inl rfl))))
  case daa | mul =>
    exact replays_of_mem_eq (mem_next h (by simp [multiply, decimalAdjust])) (.inl rfl)
  case rts =>
    exact replays_of_mem_eq (mem_next h rfl) (.inr (.inr (.inr (.inr (.inl rfl)))))
  case rti =>
    exact replays_of_mem_eq (mem_next h
      (by simp [State.returnFromInterrupt])) (.inr (.inr (.inr (.inr (.inr (.inl rfl))))))
  case swi | swi2 | swi3 =>
    exact replays_softwareInterrupt h
  case nega | coma | lsra | rora | asra | asla | rola | deca | inca | clra | negb | comb | lsrb | rorb | asrb | aslb |
    rolb | decb | incb | clrb =>
    exact replays_of_mem_eq (mem_next h (mem_modifyAcc (fun _ _ => rfl) _ _)) (.inl rfl)

/-! ### Every step -/

/-- The write events of a list of cycles that has none leave memory as it is. -/
theorem replay_stackAndVector (p : Platform) (m : Memory) (s : State) (ev : Event) :
    replay p m (eventsOf (s.stackAndVector ev)) = replay p m (eventsOf (s.stackingCycles ev.entire)) := by
  simp only [State.stackAndVector, eventsOf_append, replay_append]
  rfl

/-- The stacking reads the registers, no latch, no run state and no counter. -/
theorem stackingCycles_congr (s : State) (entire pending reset : Bool) (run : RunState) (n : Nat) :
    { s with nmiPending := pending, run := run, resetHalt := reset, draws := n }.stackingCycles entire =
      s.stackingCycles entire := rfl

/-- The memory that an interrupt entry leaves is that of its stacking. -/
theorem mem_enterInterrupt (s : State) (ev : Event) (pending reset : Bool) (run : RunState) (n : Nat) :
    ({ s with nmiPending := pending, run := run, resetHalt := reset, draws := n }.enterInterrupt ev).mem =
      replay s.platform s.mem (eventsOf (s.stackAndVector ev)) := by
  rw [replay_stackAndVector, ← stackingCycles_congr s ev.entire (pending && ev != .nmi) reset run n]
  exact mem_stacked { s with nmiPending := pending && ev != .nmi, run := run, resetHalt := reset, draws := n } ev.entire

theorem replay_entrySequence (p : Platform) (m : Memory) (s : State) (ev : Event) :
    replay p m (eventsOf (s.entrySequence ev)) = replay p m (eventsOf (s.stackAndVector ev)) := by
  simp only [State.entrySequence, eventsOf_append, replay_append]
  rfl

/-- The write events of a fetched instruction, replayed, give the memory that it leaves. -/
theorem replay_fetchedBusCycles {s1 s2 t : State} {i : Instr} (hf : s1.fetchInstr = .next (i, s2))
    (h : exec i s2 = .next t) : t.mem = replay s1.platform s1.mem (eventsOf s1.fetchedBusCycles) := by
  obtain ⟨rest, -, hs⟩ := fetchInstr_cases hf
  have e := replays_exec h
  rw [Replays, ← replay_instrBusCycles _ _ i s1.fetchedLength] at e
  rw [State.fetchedBusCycles, hf, e, hs]

/-- A dead cycle is no event, and neither is its absence. -/
@[simp] theorem eventsOf_optional_dead (c : Prop) [Decidable c] :
    eventsOf (if c then [deadCycle] else []) = [] := by
  by_cases h : c <;> simp only [h, if_true, if_false] <;> rfl

/-- The events of a step with RESET low: a read of $FFFE whose byte is ignored (R490). -/
@[simp] theorem eventsOf_resetLowCycles (s : State) :
    eventsOf s.resetLowCycles = [.ignoredRead resetVector] := by
  simp only [State.resetLowCycles, eventsOf_append, eventsOf_optional_dead, List.nil_append]
  rfl

/-- The marked cycles make the accesses of the cycles. -/
@[simp] theorem eventsOf_outOfSync (cs : List BusCycle) : eventsOf (outOfSync cs) = eventsOf cs := by
  simp only [eventsOf, outOfSync, List.filterMap_map]
  rfl

theorem replay_boundaryCycles {s : State} {p : Sample} :
    (∀ t, s.atBoundary p = .done t → t.mem = replay s.platform s.mem (eventsOf (s.boundaryCycles p))) ∧
      ∀ s1, s.atBoundary p = .execute s1 →
        eventsOf (s.boundaryCycles p) = eventsOf s1.fetchedBusCycles ∧ s1.mem = s.mem ∧
          s1.platform = s.platform := by
  unfold State.atBoundary State.boundaryCycles
  constructor
  · intro t h
    split at h
    · injection h with h
      subst h
      simp [*, replay]
    · split at h
      · injection h with h
        subst h
        simp [*, replay]
      · split at h
        · next ev he =>
          injection h with h
          subst h
          simp only [*, Bool.false_eq_true, if_false, eventsOf_append, eventsOf_optional_dead, List.nil_append,
            replay_entrySequence]
          exact mem_enterInterrupt s ev _ _ _ _
        · cases h
  · intro s1 h
    split at h
    · cases h
    · split at h
      · cases h
      · split at h
        · cases h
        · next he =>
          injection h with h
          subst h
          simp [*]

theorem replay_syncCycles {s t : State} {p : Sample} (h : s.inSync p = .done t) :
    t.mem = replay s.platform s.mem (eventsOf (s.syncCycles p)) := by
  unfold State.inSync at h
  unfold State.syncCycles
  split at h
  · injection h with h
    subst h
    simp [*, replay]
  · split at h
    · cases h
    · split at h
      · injection h with h
        subst h
        rw [if_neg (by assumption), if_neg (by assumption), if_pos (by assumption)]
        have hg : eventsOf [gapCycles, deadCycle] = [] := rfl
        have ha : eventsOf [{ kind := .syncAccepted }, gapCycles] = [] := rfl
        simp only [State.leaveSync, eventsOf_append, eventsOf_outOfSync, hg]
        cases (s.latchNmi p).request ((s.latchNmi p).synchronized p) with
        | some ev =>
          simp only [eventsOf_append, eventsOf_outOfSync, ha, List.nil_append]
          exact mem_enterInterrupt s ev _ _ _ _
        | none => rfl
      · injection h with h
        subst h
        rw [if_neg (by assumption), if_neg (by assumption), if_neg (by assumption)]
        rfl

theorem replay_cwaiCycles {s t : State} {p : Sample} (h : s.inCwai p = .done t) :
    t.mem = replay s.platform s.mem (eventsOf (s.cwaiCycles p)) := by
  unfold State.inCwai at h
  unfold State.cwaiCycles
  split at h
  · injection h with h
    subst h
    simp [*, replay]
  · split at h
    · cases h
    · split at h <;> injection h with h <;> subst h <;> simp only [*, Bool.false_eq_true, if_false] <;> rfl

theorem replay_resetCycles {s t : State} {p : Sample} (h : s.inResetState p = .done t) :
    t.mem = replay s.platform s.mem (eventsOf (s.resetCycles p)) := by
  unfold State.inResetState at h
  unfold State.resetCycles
  split at h <;> injection h with h <;> subst h <;> simp only [*, Bool.false_eq_true, if_false, if_true]
  · simp [replay]
  · simp only [eventsOf_append, replay_append]
    split <;> rfl

/-- The write events of a step, replayed in their order, give the memory that the step leaves (R82). -/
theorem replay_step {st t : State} (h : step st = .next t) :
    t.mem = replay st.platform st.mem (eventsOf st.busCycles) := by
  rcases step_cases h with hc | ⟨s1, i, s2, hc, hf, he⟩
  · unfold State.control at hc
    unfold State.busCycles
    split at hc
    · next hr => simpa [hr] using replay_boundaryCycles.1 t hc
    · next hr => simpa [hr] using replay_boundaryCycles.1 t hc
    · next hr => simpa [hr] using replay_syncCycles hc
    · next hr => simpa [hr] using replay_cwaiCycles hc
    · next hr => simpa [hr] using replay_resetCycles hc
  · have hb := (control_execute hc).1
    unfold State.control at hc
    unfold State.busCycles
    have hx : st.beginStep.atBoundary st.sample = .execute s1 := by
      rcases hb with hb | hb <;> simpa [hb] using hc
    obtain ⟨e1, e2, e3⟩ := replay_boundaryCycles.2 s1 hx
    have e := replay_fetchedBusCycles hf he
    rw [e2, e3, ← e1] at e
    rcases hb with hb | hb <;> simpa [hb] using e

/-- Leaving out ignored reads leaves out no write. -/
theorem replay_filter (p : Platform) (m : Memory) (d : Bool) (es : List BusEvent) :
    replay p m (es.filter fun e => d || !e.isIgnored) = replay p m es := by
  induction es generalizing m with
  | nil => rfl
  | cons e es ih => cases e <;> cases d <;> exact ih _

/-- The event history of a step gives the memory that the step leaves. -/
theorem replay_events {st t : State} {d : Bool} {es : List BusEvent} (h : st.events d = .next es)
    (hs : step st = .next t) : t.mem = replay st.platform st.mem es := by
  rw [State.events, hs] at h
  dsimp only at h
  split at h
  · cases h
  · injection h with h
    rw [← h, replay_filter, replay_step hs]

/-- An indirect operand takes its effective address from the two bytes whose reads are listed (R115). -/
theorem indexedEA_of_pointerAddr {st : State} {m : Idx} {a : Word} (h : st.pointerAddr m = some a) :
    st.indexedEA m = st.readPointer a := by
  cases m <;> simp only [State.pointerAddr, reduceCtorEq, Option.some.injEq] at h
  case extInd => rw [← h, State.indexedEA]
  all_goals
    split at h <;> simp_all [State.indexedEA, State.indirect]

end Sys2Proof.Laws
end

