-- ==== Sys2Proof/Machine/Outputs.lean ====
section
/-! DEFINITION. The status outputs BA, BS, LIC, AVMA and BUSY as far as the spec gives them (60_exceptions.md R440,
R445, R460, R468 to R473; 20_memory.md R68; 45_misc.md R411): their levels in each bus cycle, between steps, and over
the cycles of a run. They change nothing a program computes (R468). `none` says that the spec gives no level. Log
entries 26 and 34. -/

namespace Sys2Proof.Machine

/-! ### The outputs of one cycle -/

/-- BA and BS, `true` for high (R473): Normal 0 0, Interrupt or RESET Acknowledge 0 1, SYNC Acknowledge 1 0, HALT
Acknowledge 1 1; not stated while RESET is low. -/
def BusCycle.baBs (c : BusCycle) : Option (Bool × Bool) :=
  match c.kind with
  | .normal | .opcodeFetch | .instrByte | .discarded | .dummy | .pointerHigh | .pointerLow | .dataHigh | .dataLow
  | .byteRead | .byteWrite | .rmwRead | .rmwModify | .rmwWrite | .stackByte | .stacking | .cwaiWait
  | .dead => some (false, false)
  | .vectorHigh | .vectorLow => some (false, true)
  | .syncWait => some (true, false)
  | .halted | .haltedInReset => some (true, true)
  | .other | .gap | .syncAccepted | .inReset => none

/-- LIC (R472): high in the last cycle of every instruction, while stacking, in the Sync state and when halted at the
end of an instruction; low in the fetch of the first byte of an opcode, which its fall announces. So it is still high
between the Sync state and that fetch or the stacking of an accepted interrupt, with which it remains high (R411); a
halt in RESET is without LIC high (R460). -/
def BusCycle.lic (c : BusCycle) : Option Bool :=
  if c.last || c.outOfSync then some true
  else
    match c.kind with
    | .stacking | .syncWait | .syncAccepted | .halted => some true
    | .opcodeFetch | .haltedInReset => some false
    | .normal | .other | .gap | .instrByte | .discarded | .dummy | .pointerHigh | .pointerLow | .dataHigh | .dataLow
    | .byteRead | .byteWrite | .rmwRead | .rmwModify | .rmwWrite | .stackByte | .vectorHigh | .vectorLow
    | .cwaiWait | .dead | .inReset => none

/-- BUSY (R470, R68, R445): high in the read and the modify cycle of a read-modify-write instruction and in the first
byte of a double-byte operand, of an indirect address, of the address of JMP extended and of a vector; not active in
any cycle of a PSH or PUL instruction, nor in the pushes of a stacking (R440). The levels of the other cycles are left
open (N25; log entry 34). -/
def BusCycle.busy (c : BusCycle) : Option Bool :=
  if c.ofPushPull then some false
  else
    match c.kind with
    | .rmwRead | .rmwModify | .dataHigh | .pointerHigh | .vectorHigh => some true
    | .stacking => some false
    | .normal | .other | .gap | .opcodeFetch | .instrByte | .discarded | .dummy | .pointerLow | .dataLow | .byteRead
    | .byteWrite | .rmwWrite | .stackByte | .vectorLow | .syncWait | .syncAccepted | .cwaiWait | .halted
    | .haltedInReset | .dead | .inReset => none

/-- Does the MPU use the bus in this cycle: is it a valid access, and no VMA cycle and no released bus (R70, R469)? The
reads of $FFFE while RESET is low are no VMA cycles, which read $FFFF (R490, DEDUCED; log entry 26). -/
def BusCycle.usesBus (c : BusCycle) : Option Bool :=
  match c.kind with
  | .opcodeFetch | .instrByte | .discarded | .pointerHigh | .pointerLow | .dataHigh | .dataLow | .byteRead | .byteWrite
  | .rmwRead | .rmwWrite | .stackByte | .stacking | .vectorHigh | .vectorLow | .inReset => some true
  | .dummy | .rmwModify | .syncWait | .cwaiWait | .halted | .haltedInReset | .dead => some false
  | .normal | .other | .gap | .syncAccepted => none

/-- AVMA of a cycle, given the cycle that follows it (R471): low in the Halted and Sync states; otherwise it says
whether the MPU will use the bus in the following cycle. No level where that cycle is not given, and none for a gap. -/
def BusCycle.avma (c : BusCycle) (next : Option BusCycle) : Option Bool :=
  match c.kind with
  | .syncWait | .halted | .haltedInReset => some false
  | .gap => none
  | .normal | .other | .opcodeFetch | .instrByte | .discarded | .dummy | .pointerHigh | .pointerLow | .dataHigh
  | .dataLow | .byteRead | .byteWrite | .rmwRead | .rmwModify | .rmwWrite | .stackByte | .stacking
  | .vectorHigh | .vectorLow | .syncAccepted | .cwaiWait | .dead | .inReset => next.bind BusCycle.usesBus

/-- Are the address, data and R/W drivers at high impedance (R469, R473)? BA high says so, and a cycle that uses the bus
has them driven. -/
def BusCycle.busReleased (c : BusCycle) : Option Bool :=
  if c.usesBus = some true then some false else c.baBs.map Prod.fst

/-- The levels of the status outputs in one cycle. -/
structure Pins where
  baBs : Option (Bool × Bool)
  lic : Option Bool
  avma : Option Bool
  busy : Option Bool
deriving DecidableEq, Repr

/-- The levels of the status outputs in each of the cycles of a list. -/
def pinsOf : List BusCycle → List Pins
  | [] => []
  | c :: cs => { baBs := c.baBs, lic := c.lic, avma := c.avma cs.head?, busy := c.busy } :: pinsOf cs

/-! ### Between steps -/

/-- The cycle that goes on while the state stays as it is (R42, R469). -/
def State.waitCycle (st : State) : BusCycle :=
  match st.run with
  | .running => { kind := .normal }
  | .sync => { kind := .syncWait }
  | .cwaiWait => { kind := .cwaiWait }
  | .halted => { kind := if st.resetHalt then .haltedInReset else .halted }
  | .inReset => resetLowCycle

/-- BA and BS between steps. -/
def State.busStatus (st : State) : Option (Bool × Bool) := st.waitCycle.baBs

/-- LIC between steps. -/
def State.lic (st : State) : Option Bool := st.waitCycle.lic

/-- AVMA between steps, while the state waits. -/
def State.avma (st : State) : Option Bool := st.waitCycle.avma none

/-- Whether the bus is released between steps. -/
def State.busReleased (st : State) : Option Bool := st.waitCycle.busReleased

/-! ### Over a run -/

/-- The levels of the status outputs in the cycles of the next `n` steps: AVMA of a step's last cycle looks ahead to the
next step (R471). -/
def State.runPins (n : Nat) (st : State) : List Pins := pinsOf (st.runCycles n)

end Sys2Proof.Machine
end

