-- ==== Sys2Proof/Laws/Outputs.lean ====
section
/-! SUPPORT. What the lists of bus cycles of Machine/BusCycles.lean hold: the kinds and accesses they are built from,
and the cycle that is marked as the last. -/

namespace Sys2Proof.Laws

open Sys2Proof.Machine

/-- There is one set of levels for each cycle. -/
@[simp] theorem length_pinsOf (cs : List BusCycle) : (pinsOf cs).length = cs.length := by
  induction cs with
  | nil => rfl
  | cons c cs ih => simp [pinsOf, ih]

@[simp] theorem map_kind_plainCycles (ks : List CycleKind) : (plainCycles ks).map BusCycle.kind = ks := by
  simp [plainCycles, Function.comp_def]

/-- No cycle of `plainCycles` is the last of an instruction. -/
theorem last_of_mem_plainCycles {ks : List CycleKind} {c : BusCycle} (h : c ∈ plainCycles ks) : c.last = false := by
  obtain ⟨k, -, rfl⟩ := List.mem_map.mp h
  rfl

@[simp] theorem map_kind_wholeInstr (cs : List BusCycle) :
    (wholeInstr cs).map BusCycle.kind = cs.map BusCycle.kind := by
  induction cs using wholeInstr.induct with
  | case1 => rfl
  | case2 c => rfl
  | case3 c cs h ih => simp [wholeInstr, ih]

/-- The last cycle of a whole instruction has LIC high (R472). -/
theorem lic_getLast?_wholeInstr {cs : List BusCycle} (h : cs ≠ []) :
    ((wholeInstr cs).getLast?.map BusCycle.lic) = some (some true) := by
  induction cs using wholeInstr.induct with
  | case1 => exact absurd rfl h
  | case2 c => simp [wholeInstr, BusCycle.lic]
  | case3 c cs hc ih =>
    have hcs : cs ≠ [] := fun e => hc e
    obtain ⟨d, ds, hd⟩ : ∃ d ds, wholeInstr cs = d :: ds := by
      rw [← List.ne_nil_iff_exists_cons]
      intro e
      exact hcs (by simpa [e] using (map_kind_wholeInstr cs).symm)
    simpa [wholeInstr, hd, List.getLast?_cons_cons] using ih hcs

/-- BUSY is low in every cycle of a PSH or PUL instruction (R470). -/
theorem busy_pushPull {c : BusCycle} (h : c.ofPushPull = true) : c.busy = some false := by simp [BusCycle.busy, h]

end Sys2Proof.Laws
end

