-- ==== Sys2Proof/Laws/PerInstr.lean ====
section
/-! SUPPORT. Statements for all instructions, one lemma per constructor of `Instr`: an encoding has one to five
bytes (30_encoding.md R90). -/

namespace Sys2Proof.Laws.EncodedLength

open Sys2Proof

/-- The encoding of the instruction has one to five bytes (R90). -/
def Statement (i : Instr) : Prop := 1 ≤ (encode i).length ∧ (encode i).length ≤ 5

theorem ofBounds {i : Instr} (h : (Nat.ble 1 (encode i).length && Nat.ble (encode i).length 5) = true) :
    Statement i := by
  rw [Bool.and_eq_true] at h
  exact ⟨Nat.le_of_ble_eq_true h.1, Nat.le_of_ble_eq_true h.2⟩

/-- An indexed operand takes one to three bytes (R100). -/
theorem length_encodeIdx (m : Idx) : 1 ≤ (encodeIdx m).length ∧ (encodeIdx m).length ≤ 3 := by
  cases m <;> simp [encodeIdx, wordBytes]

theorem length_idx1 (op : Byte) (m : Idx) :
    1 ≤ (op :: encodeIdx m).length ∧ (op :: encodeIdx m).length ≤ 5 := by
  have h := length_encodeIdx m
  simp only [List.length_cons]
  omega

theorem length_idx2 (pre op : Byte) (m : Idx) :
    1 ≤ (pre :: op :: encodeIdx m).length ∧ (pre :: op :: encodeIdx m).length ≤ 5 := by
  have h := length_encodeIdx m
  simp only [List.length_cons]
  omega

theorem negDir (lo : Byte) : Statement (.negDir lo) := ofBounds rfl
theorem comDir (lo : Byte) : Statement (.comDir lo) := ofBounds rfl
theorem lsrDir (lo : Byte) : Statement (.lsrDir lo) := ofBounds rfl
theorem rorDir (lo : Byte) : Statement (.rorDir lo) := ofBounds rfl
theorem asrDir (lo : Byte) : Statement (.asrDir lo) := ofBounds rfl
theorem aslDir (lo : Byte) : Statement (.aslDir lo) := ofBounds rfl
theorem rolDir (lo : Byte) : Statement (.rolDir lo) := ofBounds rfl
theorem decDir (lo : Byte) : Statement (.decDir lo) := ofBounds rfl
theorem incDir (lo : Byte) : Statement (.incDir lo) := ofBounds rfl
theorem tstDir (lo : Byte) : Statement (.tstDir lo) := ofBounds rfl
theorem jmpDir (lo : Byte) : Statement (.jmpDir lo) := ofBounds rfl
theorem clrDir (lo : Byte) : Statement (.clrDir lo) := ofBounds rfl
theorem nop : Statement (.nop) := ofBounds rfl
theorem sync : Statement (.sync) := ofBounds rfl
theorem lbra (off : Word) : Statement (.lbra off) := ofBounds rfl
theorem lbsr (off : Word) : Statement (.lbsr off) := ofBounds rfl
theorem daa : Statement (.daa) := ofBounds rfl
theorem orcc (imm : Byte) : Statement (.orcc imm) := ofBounds rfl
theorem andcc (imm : Byte) : Statement (.andcc imm) := ofBounds rfl
theorem sex : Statement (.sex) := ofBounds rfl
theorem exg (src : RegCode) (dst : RegCode) : Statement (.exg src dst) := ofBounds rfl
theorem tfr (src : RegCode) (dst : RegCode) : Statement (.tfr src dst) := ofBounds rfl
theorem bra (off : Byte) : Statement (.bra off) := ofBounds rfl
theorem brn (off : Byte) : Statement (.brn off) := ofBounds rfl
theorem bhi (off : Byte) : Statement (.bhi off) := ofBounds rfl
theorem bls (off : Byte) : Statement (.bls off) := ofBounds rfl
theorem bcc (off : Byte) : Statement (.bcc off) := ofBounds rfl
theorem bcs (off : Byte) : Statement (.bcs off) := ofBounds rfl
theorem bne (off : Byte) : Statement (.bne off) := ofBounds rfl
theorem beq (off : Byte) : Statement (.beq off) := ofBounds rfl
theorem bvc (off : Byte) : Statement (.bvc off) := ofBounds rfl
theorem bvs (off : Byte) : Statement (.bvs off) := ofBounds rfl
theorem bpl (off : Byte) : Statement (.bpl off) := ofBounds rfl
theorem bmi (off : Byte) : Statement (.bmi off) := ofBounds rfl
theorem bge (off : Byte) : Statement (.bge off) := ofBounds rfl
theorem blt (off : Byte) : Statement (.blt off) := ofBounds rfl
theorem bgt (off : Byte) : Statement (.bgt off) := ofBounds rfl
theorem ble (off : Byte) : Statement (.ble off) := ofBounds rfl
theorem leax (m : Idx) : Statement (.leax m) := length_idx1 _ m
theorem leay (m : Idx) : Statement (.leay m) := length_idx1 _ m
theorem leas (m : Idx) : Statement (.leas m) := length_idx1 _ m
theorem leau (m : Idx) : Statement (.leau m) := length_idx1 _ m
theorem pshs (pb : Byte) : Statement (.pshs pb) := ofBounds rfl
theorem puls (pb : Byte) : Statement (.puls pb) := ofBounds rfl
theorem pshu (pb : Byte) : Statement (.pshu pb) := ofBounds rfl
theorem pulu (pb : Byte) : Statement (.pulu pb) := ofBounds rfl
theorem rts : Statement (.rts) := ofBounds rfl
theorem abx : Statement (.abx) := ofBounds rfl
theorem rti : Statement (.rti) := ofBounds rfl
theorem cwai (imm : Byte) : Statement (.cwai imm) := ofBounds rfl
theorem mul : Statement (.mul) := ofBounds rfl
theorem swi : Statement (.swi) := ofBounds rfl
theorem nega : Statement (.nega) := ofBounds rfl
theorem coma : Statement (.coma) := ofBounds rfl
theorem lsra : Statement (.lsra) := ofBounds rfl
theorem rora : Statement (.rora) := ofBounds rfl
theorem asra : Statement (.asra) := ofBounds rfl
theorem asla : Statement (.asla) := ofBounds rfl
theorem rola : Statement (.rola) := ofBounds rfl
theorem deca : Statement (.deca) := ofBounds rfl
theorem inca : Statement (.inca) := ofBounds rfl
theorem tsta : Statement (.tsta) := ofBounds rfl
theorem clra : Statement (.clra) := ofBounds rfl
theorem negb : Statement (.negb) := ofBounds rfl
theorem comb : Statement (.comb) := ofBounds rfl
theorem lsrb : Statement (.lsrb) := ofBounds rfl
theorem rorb : Statement (.rorb) := ofBounds rfl
theorem asrb : Statement (.asrb) := ofBounds rfl
theorem aslb : Statement (.aslb) := ofBounds rfl
theorem rolb : Statement (.rolb) := ofBounds rfl
theorem decb : Statement (.decb) := ofBounds rfl
theorem incb : Statement (.incb) := ofBounds rfl
theorem tstb : Statement (.tstb) := ofBounds rfl
theorem clrb : Statement (.clrb) := ofBounds rfl
theorem negIdx (m : Idx) : Statement (.negIdx m) := length_idx1 _ m
theorem comIdx (m : Idx) : Statement (.comIdx m) := length_idx1 _ m
theorem lsrIdx (m : Idx) : Statement (.lsrIdx m) := length_idx1 _ m
theorem rorIdx (m : Idx) : Statement (.rorIdx m) := length_idx1 _ m
theorem asrIdx (m : Idx) : Statement (.asrIdx m) := length_idx1 _ m
theorem aslIdx (m : Idx) : Statement (.aslIdx m) := length_idx1 _ m
theorem rolIdx (m : Idx) : Statement (.rolIdx m) := length_idx1 _ m
theorem decIdx (m : Idx) : Statement (.decIdx m) := length_idx1 _ m
theorem incIdx (m : Idx) : Statement (.incIdx m) := length_idx1 _ m
theorem tstIdx (m : Idx) : Statement (.tstIdx m) := length_idx1 _ m
theorem jmpIdx (m : Idx) : Statement (.jmpIdx m) := length_idx1 _ m
theorem clrIdx (m : Idx) : Statement (.clrIdx m) := length_idx1 _ m
theorem negExt (addr : Word) : Statement (.negExt addr) := ofBounds rfl
theorem comExt (addr : Word) : Statement (.comExt addr) := ofBounds rfl
theorem lsrExt (addr : Word) : Statement (.lsrExt addr) := ofBounds rfl
theorem rorExt (addr : Word) : Statement (.rorExt addr) := ofBounds rfl
theorem asrExt (addr : Word) : Statement (.asrExt addr) := ofBounds rfl
theorem aslExt (addr : Word) : Statement (.aslExt addr) := ofBounds rfl
theorem rolExt (addr : Word) : Statement (.rolExt addr) := ofBounds rfl
theorem decExt (addr : Word) : Statement (.decExt addr) := ofBounds rfl
theorem incExt (addr : Word) : Statement (.incExt addr) := ofBounds rfl
theorem tstExt (addr : Word) : Statement (.tstExt addr) := ofBounds rfl
theorem jmpExt (addr : Word) : Statement (.jmpExt addr) := ofBounds rfl
theorem clrExt (addr : Word) : Statement (.clrExt addr) := ofBounds rfl
theorem subaImm (imm : Byte) : Statement (.subaImm imm) := ofBounds rfl
theorem cmpaImm (imm : Byte) : Statement (.cmpaImm imm) := ofBounds rfl
theorem sbcaImm (imm : Byte) : Statement (.sbcaImm imm) := ofBounds rfl
theorem subdImm (imm : Word) : Statement (.subdImm imm) := ofBounds rfl
theorem andaImm (imm : Byte) : Statement (.andaImm imm) := ofBounds rfl
theorem bitaImm (imm : Byte) : Statement (.bitaImm imm) := ofBounds rfl
theorem ldaImm (imm : Byte) : Statement (.ldaImm imm) := ofBounds rfl
theorem eoraImm (imm : Byte) : Statement (.eoraImm imm) := ofBounds rfl
theorem adcaImm (imm : Byte) : Statement (.adcaImm imm) := ofBounds rfl
theorem oraImm (imm : Byte) : Statement (.oraImm imm) := ofBounds rfl
theorem addaImm (imm : Byte) : Statement (.addaImm imm) := ofBounds rfl
theorem cmpxImm (imm : Word) : Statement (.cmpxImm imm) := ofBounds rfl
theorem bsr (off : Byte) : Statement (.bsr off) := ofBounds rfl
theorem ldxImm (imm : Word) : Statement (.ldxImm imm) := ofBounds rfl
theorem subaDir (lo : Byte) : Statement (.subaDir lo) := ofBounds rfl
theorem cmpaDir (lo : Byte) : Statement (.cmpaDir lo) := ofBounds rfl
theorem sbcaDir (lo : Byte) : Statement (.sbcaDir lo) := ofBounds rfl
theorem subdDir (lo : Byte) : Statement (.subdDir lo) := ofBounds rfl
theorem andaDir (lo : Byte) : Statement (.andaDir lo) := ofBounds rfl
theorem bitaDir (lo : Byte) : Statement (.bitaDir lo) := ofBounds rfl
theorem ldaDir (lo : Byte) : Statement (.ldaDir lo) := ofBounds rfl
theorem staDir (lo : Byte) : Statement (.staDir lo) := ofBounds rfl
theorem eoraDir (lo : Byte) : Statement (.eoraDir lo) := ofBounds rfl
theorem adcaDir (lo : Byte) : Statement (.adcaDir lo) := ofBounds rfl
theorem oraDir (lo : Byte) : Statement (.oraDir lo) := ofBounds rfl
theorem addaDir (lo : Byte) : Statement (.addaDir lo) := ofBounds rfl
theorem cmpxDir (lo : Byte) : Statement (.cmpxDir lo) := ofBounds rfl
theorem jsrDir (lo : Byte) : Statement (.jsrDir lo) := ofBounds rfl
theorem ldxDir (lo : Byte) : Statement (.ldxDir lo) := ofBounds rfl
theorem stxDir (lo : Byte) : Statement (.stxDir lo) := ofBounds rfl
theorem subaIdx (m : Idx) : Statement (.subaIdx m) := length_idx1 _ m
theorem cmpaIdx (m : Idx) : Statement (.cmpaIdx m) := length_idx1 _ m
theorem sbcaIdx (m : Idx) : Statement (.sbcaIdx m) := length_idx1 _ m
theorem subdIdx (m : Idx) : Statement (.subdIdx m) := length_idx1 _ m
theorem andaIdx (m : Idx) : Statement (.andaIdx m) := length_idx1 _ m
theorem bitaIdx (m : Idx) : Statement (.bitaIdx m) := length_idx1 _ m
theorem ldaIdx (m : Idx) : Statement (.ldaIdx m) := length_idx1 _ m
theorem staIdx (m : Idx) : Statement (.staIdx m) := length_idx1 _ m
theorem eoraIdx (m : Idx) : Statement (.eoraIdx m) := length_idx1 _ m
theorem adcaIdx (m : Idx) : Statement (.adcaIdx m) := length_idx1 _ m
theorem oraIdx (m : Idx) : Statement (.oraIdx m) := length_idx1 _ m
theorem addaIdx (m : Idx) : Statement (.addaIdx m) := length_idx1 _ m
theorem cmpxIdx (m : Idx) : Statement (.cmpxIdx m) := length_idx1 _ m
theorem jsrIdx (m : Idx) : Statement (.jsrIdx m) := length_idx1 _ m
theorem ldxIdx (m : Idx) : Statement (.ldxIdx m) := length_idx1 _ m
theorem stxIdx (m : Idx) : Statement (.stxIdx m) := length_idx1 _ m
theorem subaExt (addr : Word) : Statement (.subaExt addr) := ofBounds rfl
theorem cmpaExt (addr : Word) : Statement (.cmpaExt addr) := ofBounds rfl
theorem sbcaExt (addr : Word) : Statement (.sbcaExt addr) := ofBounds rfl
theorem subdExt (addr : Word) : Statement (.subdExt addr) := ofBounds rfl
theorem andaExt (addr : Word) : Statement (.andaExt addr) := ofBounds rfl
theorem bitaExt (addr : Word) : Statement (.bitaExt addr) := ofBounds rfl
theorem ldaExt (addr : Word) : Statement (.ldaExt addr) := ofBounds rfl
theorem staExt (addr : Word) : Statement (.staExt addr) := ofBounds rfl
theorem eoraExt (addr : Word) : Statement (.eoraExt addr) := ofBounds rfl
theorem adcaExt (addr : Word) : Statement (.adcaExt addr) := ofBounds rfl
theorem oraExt (addr : Word) : Statement (.oraExt addr) := ofBounds rfl
theorem addaExt (addr : Word) : Statement (.addaExt addr) := ofBounds rfl
theorem cmpxExt (addr : Word) : Statement (.cmpxExt addr) := ofBounds rfl
theorem jsrExt (addr : Word) : Statement (.jsrExt addr) := ofBounds rfl
theorem ldxExt (addr : Word) : Statement (.ldxExt addr) := ofBounds rfl
theorem stxExt (addr : Word) : Statement (.stxExt addr) := ofBounds rfl
theorem subbImm (imm : Byte) : Statement (.subbImm imm) := ofBounds rfl
theorem cmpbImm (imm : Byte) : Statement (.cmpbImm imm) := ofBounds rfl
theorem sbcbImm (imm : Byte) : Statement (.sbcbImm imm) := ofBounds rfl
theorem adddImm (imm : Word) : Statement (.adddImm imm) := ofBounds rfl
theorem andbImm (imm : Byte) : Statement (.andbImm imm) := ofBounds rfl
theorem bitbImm (imm : Byte) : Statement (.bitbImm imm) := ofBounds rfl
theorem ldbImm (imm : Byte) : Statement (.ldbImm imm) := ofBounds rfl
theorem eorbImm (imm : Byte) : Statement (.eorbImm imm) := ofBounds rfl
theorem adcbImm (imm : Byte) : Statement (.adcbImm imm) := ofBounds rfl
theorem orbImm (imm : Byte) : Statement (.orbImm imm) := ofBounds rfl
theorem addbImm (imm : Byte) : Statement (.addbImm imm) := ofBounds rfl
theorem lddImm (imm : Word) : Statement (.lddImm imm) := ofBounds rfl
theorem lduImm (imm : Word) : Statement (.lduImm imm) := ofBounds rfl
theorem subbDir (lo : Byte) : Statement (.subbDir lo) := ofBounds rfl
theorem cmpbDir (lo : Byte) : Statement (.cmpbDir lo) := ofBounds rfl
theorem sbcbDir (lo : Byte) : Statement (.sbcbDir lo) := ofBounds rfl
theorem adddDir (lo : Byte) : Statement (.adddDir lo) := ofBounds rfl
theorem andbDir (lo : Byte) : Statement (.andbDir lo) := ofBounds rfl
theorem bitbDir (lo : Byte) : Statement (.bitbDir lo) := ofBounds rfl
theorem ldbDir (lo : Byte) : Statement (.ldbDir lo) := ofBounds rfl
theorem stbDir (lo : Byte) : Statement (.stbDir lo) := ofBounds rfl
theorem eorbDir (lo : Byte) : Statement (.eorbDir lo) := ofBounds rfl
theorem adcbDir (lo : Byte) : Statement (.adcbDir lo) := ofBounds rfl
theorem orbDir (lo : Byte) : Statement (.orbDir lo) := ofBounds rfl
theorem addbDir (lo : Byte) : Statement (.addbDir lo) := ofBounds rfl
theorem lddDir (lo : Byte) : Statement (.lddDir lo) := ofBounds rfl
theorem stdDir (lo : Byte) : Statement (.stdDir lo) := ofBounds rfl
theorem lduDir (lo : Byte) : Statement (.lduDir lo) := ofBounds rfl
theorem stuDir (lo : Byte) : Statement (.stuDir lo) := ofBounds rfl
theorem subbIdx (m : Idx) : Statement (.subbIdx m) := length_idx1 _ m
theorem cmpbIdx (m : Idx) : Statement (.cmpbIdx m) := length_idx1 _ m
theorem sbcbIdx (m : Idx) : Statement (.sbcbIdx m) := length_idx1 _ m
theorem adddIdx (m : Idx) : Statement (.adddIdx m) := length_idx1 _ m
theorem andbIdx (m : Idx) : Statement (.andbIdx m) := length_idx1 _ m
theorem bitbIdx (m : Idx) : Statement (.bitbIdx m) := length_idx1 _ m
theorem ldbIdx (m : Idx) : Statement (.ldbIdx m) := length_idx1 _ m
theorem stbIdx (m : Idx) : Statement (.stbIdx m) := length_idx1 _ m
theorem eorbIdx (m : Idx) : Statement (.eorbIdx m) := length_idx1 _ m
theorem adcbIdx (m : Idx) : Statement (.adcbIdx m) := length_idx1 _ m
theorem orbIdx (m : Idx) : Statement (.orbIdx m) := length_idx1 _ m
theorem addbIdx (m : Idx) : Statement (.addbIdx m) := length_idx1 _ m
theorem lddIdx (m : Idx) : Statement (.lddIdx m) := length_idx1 _ m
theorem stdIdx (m : Idx) : Statement (.stdIdx m) := length_idx1 _ m
theorem lduIdx (m : Idx) : Statement (.lduIdx m) := length_idx1 _ m
theorem stuIdx (m : Idx) : Statement (.stuIdx m) := length_idx1 _ m
theorem subbExt (addr : Word) : Statement (.subbExt addr) := ofBounds rfl
theorem cmpbExt (addr : Word) : Statement (.cmpbExt addr) := ofBounds rfl
theorem sbcbExt (addr : Word) : Statement (.sbcbExt addr) := ofBounds rfl
theorem adddExt (addr : Word) : Statement (.adddExt addr) := ofBounds rfl
theorem andbExt (addr : Word) : Statement (.andbExt addr) := ofBounds rfl
theorem bitbExt (addr : Word) : Statement (.bitbExt addr) := ofBounds rfl
theorem ldbExt (addr : Word) : Statement (.ldbExt addr) := ofBounds rfl
theorem stbExt (addr : Word) : Statement (.stbExt addr) := ofBounds rfl
theorem eorbExt (addr : Word) : Statement (.eorbExt addr) := ofBounds rfl
theorem adcbExt (addr : Word) : Statement (.adcbExt addr) := ofBounds rfl
theorem orbExt (addr : Word) : Statement (.orbExt addr) := ofBounds rfl
theorem addbExt (addr : Word) : Statement (.addbExt addr) := ofBounds rfl
theorem lddExt (addr : Word) : Statement (.lddExt addr) := ofBounds rfl
theorem stdExt (addr : Word) : Statement (.stdExt addr) := ofBounds rfl
theorem lduExt (addr : Word) : Statement (.lduExt addr) := ofBounds rfl
theorem stuExt (addr : Word) : Statement (.stuExt addr) := ofBounds rfl
theorem lbrn (off : Word) : Statement (.lbrn off) := ofBounds rfl
theorem lbhi (off : Word) : Statement (.lbhi off) := ofBounds rfl
theorem lbls (off : Word) : Statement (.lbls off) := ofBounds rfl
theorem lbcc (off : Word) : Statement (.lbcc off) := ofBounds rfl
theorem lbcs (off : Word) : Statement (.lbcs off) := ofBounds rfl
theorem lbne (off : Word) : Statement (.lbne off) := ofBounds rfl
theorem lbeq (off : Word) : Statement (.lbeq off) := ofBounds rfl
theorem lbvc (off : Word) : Statement (.lbvc off) := ofBounds rfl
theorem lbvs (off : Word) : Statement (.lbvs off) := ofBounds rfl
theorem lbpl (off : Word) : Statement (.lbpl off) := ofBounds rfl
theorem lbmi (off : Word) : Statement (.lbmi off) := ofBounds rfl
theorem lbge (off : Word) : Statement (.lbge off) := ofBounds rfl
theorem lblt (off : Word) : Statement (.lblt off) := ofBounds rfl
theorem lbgt (off : Word) : Statement (.lbgt off) := ofBounds rfl
theorem lble (off : Word) : Statement (.lble off) := ofBounds rfl
theorem swi2 : Statement (.swi2) := ofBounds rfl
theorem cmpdImm (imm : Word) : Statement (.cmpdImm imm) := ofBounds rfl
theorem cmpyImm (imm : Word) : Statement (.cmpyImm imm) := ofBounds rfl
theorem ldyImm (imm : Word) : Statement (.ldyImm imm) := ofBounds rfl
theorem cmpdDir (lo : Byte) : Statement (.cmpdDir lo) := ofBounds rfl
theorem cmpyDir (lo : Byte) : Statement (.cmpyDir lo) := ofBounds rfl
theorem ldyDir (lo : Byte) : Statement (.ldyDir lo) := ofBounds rfl
theorem styDir (lo : Byte) : Statement (.styDir lo) := ofBounds rfl
theorem cmpdIdx (m : Idx) : Statement (.cmpdIdx m) := length_idx2 _ _ m
theorem cmpyIdx (m : Idx) : Statement (.cmpyIdx m) := length_idx2 _ _ m
theorem ldyIdx (m : Idx) : Statement (.ldyIdx m) := length_idx2 _ _ m
theorem styIdx (m : Idx) : Statement (.styIdx m) := length_idx2 _ _ m
theorem cmpdExt (addr : Word) : Statement (.cmpdExt addr) := ofBounds rfl
theorem cmpyExt (addr : Word) : Statement (.cmpyExt addr) := ofBounds rfl
theorem ldyExt (addr : Word) : Statement (.ldyExt addr) := ofBounds rfl
theorem styExt (addr : Word) : Statement (.styExt addr) := ofBounds rfl
theorem ldsImm (imm : Word) : Statement (.ldsImm imm) := ofBounds rfl
theorem ldsDir (lo : Byte) : Statement (.ldsDir lo) := ofBounds rfl
theorem stsDir (lo : Byte) : Statement (.stsDir lo) := ofBounds rfl
theorem ldsIdx (m : Idx) : Statement (.ldsIdx m) := length_idx2 _ _ m
theorem stsIdx (m : Idx) : Statement (.stsIdx m) := length_idx2 _ _ m
theorem ldsExt (addr : Word) : Statement (.ldsExt addr) := ofBounds rfl
theorem stsExt (addr : Word) : Statement (.stsExt addr) := ofBounds rfl
theorem swi3 : Statement (.swi3) := ofBounds rfl
theorem cmpuImm (imm : Word) : Statement (.cmpuImm imm) := ofBounds rfl
theorem cmpsImm (imm : Word) : Statement (.cmpsImm imm) := ofBounds rfl
theorem cmpuDir (lo : Byte) : Statement (.cmpuDir lo) := ofBounds rfl
theorem cmpsDir (lo : Byte) : Statement (.cmpsDir lo) := ofBounds rfl
theorem cmpuIdx (m : Idx) : Statement (.cmpuIdx m) := length_idx2 _ _ m
theorem cmpsIdx (m : Idx) : Statement (.cmpsIdx m) := length_idx2 _ _ m
theorem cmpuExt (addr : Word) : Statement (.cmpuExt addr) := ofBounds rfl
theorem cmpsExt (addr : Word) : Statement (.cmpsExt addr) := ofBounds rfl

end Sys2Proof.Laws.EncodedLength
end

