-- ==== Sys2Proof/Tests/Slice0.lean ====
section
/-! SUPPORT. Small tests, with expected values from the spec's own vectors (95_test_vectors.md to
97_derived_vectors_control.md) and worked examples, and for every statement with hypotheses a concrete state that
meets them. -/

namespace Sys2Proof.Tests

set_option Elab.async false

open Sys2Proof Sys2Proof.Machine Sys2Proof.Claims

/-! ### WellFormed: an ill-formed term of each check is refused -/

theorem test_wf_refuses_tfr_of_unlike_size : Instr.wf (.tfr .a .x) = false := by decide +kernel
theorem test_wf_refuses_exg_of_unlike_size : Instr.wf (.exg .pc .dp) = false := by decide +kernel
theorem test_wf_accepts_like_size : (Instr.wf (.tfr .a .dp) && Instr.wf (.exg .d .pc)) = true := by decide +kernel

/-! ### Decoding: words written out from the opcode maps and postbyte tables of 30_encoding.md -/

/-- Every byte string decodes to its instruction, with nothing left, and is that instruction's encoding. -/
def agree (table : List (List Byte × Instr)) : Bool :=
  table.all fun row =>
    (match decode row.1 with
     | .ok (i, rest) => i == row.2 && rest == []
     | .error _ => false) && encode row.2 == row.1

theorem test_decode_page1_row0 : agree
  [([0x00#8, 0x96#8], .negDir 0x96#8),
   ([0x03#8, 0x96#8], .comDir 0x96#8),
   ([0x04#8, 0x96#8], .lsrDir 0x96#8),
   ([0x06#8, 0x96#8], .rorDir 0x96#8),
   ([0x07#8, 0x96#8], .asrDir 0x96#8),
   ([0x08#8, 0x96#8], .aslDir 0x96#8),
   ([0x09#8, 0x96#8], .rolDir 0x96#8),
   ([0x0A#8, 0x96#8], .decDir 0x96#8),
   ([0x0C#8, 0x96#8], .incDir 0x96#8),
   ([0x0D#8, 0x96#8], .tstDir 0x96#8),
   ([0x0E#8, 0x96#8], .jmpDir 0x96#8),
   ([0x0F#8, 0x96#8], .clrDir 0x96#8)] = true := by decide +kernel

theorem test_decode_page1_row1 : agree
  [([0x12#8], .nop),
   ([0x13#8], .sync),
   ([0x16#8, 0x12#8, 0xF4#8], .lbra 0x12F4#16),
   ([0x17#8, 0x12#8, 0xF4#8], .lbsr 0x12F4#16),
   ([0x19#8], .daa),
   ([0x1A#8, 0x96#8], .orcc 0x96#8),
   ([0x1C#8, 0x96#8], .andcc 0x96#8),
   ([0x1D#8], .sex),
   ([0x1E#8, 0x01#8], .exg .d .x),
   ([0x1F#8, 0x8B#8], .tfr .a .dp)] = true := by decide +kernel

theorem test_decode_page1_row2 : agree
  [([0x20#8, 0x96#8], .bra 0x96#8),
   ([0x21#8, 0x96#8], .brn 0x96#8),
   ([0x22#8, 0x96#8], .bhi 0x96#8),
   ([0x23#8, 0x96#8], .bls 0x96#8),
   ([0x24#8, 0x96#8], .bcc 0x96#8),
   ([0x25#8, 0x96#8], .bcs 0x96#8),
   ([0x26#8, 0x96#8], .bne 0x96#8),
   ([0x27#8, 0x96#8], .beq 0x96#8),
   ([0x28#8, 0x96#8], .bvc 0x96#8),
   ([0x29#8, 0x96#8], .bvs 0x96#8),
   ([0x2A#8, 0x96#8], .bpl 0x96#8),
   ([0x2B#8, 0x96#8], .bmi 0x96#8),
   ([0x2C#8, 0x96#8], .bge 0x96#8),
   ([0x2D#8, 0x96#8], .blt 0x96#8),
   ([0x2E#8, 0x96#8], .bgt 0x96#8),
   ([0x2F#8, 0x96#8], .ble 0x96#8)] = true := by decide +kernel

theorem test_decode_page1_row3 : agree
  [([0x30#8, 0x05#8], .leax (.off5 .x 0x05#5)),
   ([0x31#8, 0x7E#8], .leay (.off5 .s 0x1E#5)),
   ([0x32#8, 0xA0#8], .leas (.inc1 .y)),
   ([0x33#8, 0xC1#8], .leau (.inc2 .u false)),
   ([0x34#8, 0x96#8], .pshs 0x96#8),
   ([0x35#8, 0x96#8], .puls 0x96#8),
   ([0x36#8, 0x96#8], .pshu 0x96#8),
   ([0x37#8, 0x96#8], .pulu 0x96#8),
   ([0x39#8], .rts),
   ([0x3A#8], .abx),
   ([0x3B#8], .rti),
   ([0x3C#8, 0x96#8], .cwai 0x96#8),
   ([0x3D#8], .mul),
   ([0x3F#8], .swi)] = true := by decide +kernel

theorem test_decode_page1_row4 : agree
  [([0x40#8], .nega),
   ([0x43#8], .coma),
   ([0x44#8], .lsra),
   ([0x46#8], .rora),
   ([0x47#8], .asra),
   ([0x48#8], .asla),
   ([0x49#8], .rola),
   ([0x4A#8], .deca),
   ([0x4C#8], .inca),
   ([0x4D#8], .tsta),
   ([0x4F#8], .clra)] = true := by decide +kernel

theorem test_decode_page1_row5 : agree
  [([0x50#8], .negb),
   ([0x53#8], .comb),
   ([0x54#8], .lsrb),
   ([0x56#8], .rorb),
   ([0x57#8], .asrb),
   ([0x58#8], .aslb),
   ([0x59#8], .rolb),
   ([0x5A#8], .decb),
   ([0x5C#8], .incb),
   ([0x5D#8], .tstb),
   ([0x5F#8], .clrb)] = true := by decide +kernel

theorem test_decode_page1_row6 : agree
  [([0x60#8, 0x91#8], .negIdx (.inc2 .x true)),
   ([0x63#8, 0xE2#8], .comIdx (.dec1 .s)),
   ([0x64#8, 0x83#8], .lsrIdx (.dec2 .x false)),
   ([0x66#8, 0xB3#8], .rorIdx (.dec2 .y true)),
   ([0x67#8, 0xC4#8], .asrIdx (.zero .u false)),
   ([0x68#8, 0xF4#8], .aslIdx (.zero .s true)),
   ([0x69#8, 0x85#8], .rolIdx (.accB .x false)),
   ([0x6A#8, 0xB5#8], .decIdx (.accB .y true)),
   ([0x6C#8, 0xA6#8], .incIdx (.accA .y false)),
   ([0x6D#8, 0xD6#8], .tstIdx (.accA .u true)),
   ([0x6E#8, 0xE8#8, 0x80#8], .jmpIdx (.off8 .s false 0x80#8)),
   ([0x6F#8, 0x98#8, 0x10#8], .clrIdx (.off8 .x true 0x10#8))] = true := by decide +kernel

theorem test_decode_page1_row7 : agree
  [([0x70#8, 0x12#8, 0xF4#8], .negExt 0x12F4#16),
   ([0x73#8, 0x12#8, 0xF4#8], .comExt 0x12F4#16),
   ([0x74#8, 0x12#8, 0xF4#8], .lsrExt 0x12F4#16),
   ([0x76#8, 0x12#8, 0xF4#8], .rorExt 0x12F4#16),
   ([0x77#8, 0x12#8, 0xF4#8], .asrExt 0x12F4#16),
   ([0x78#8, 0x12#8, 0xF4#8], .aslExt 0x12F4#16),
   ([0x79#8, 0x12#8, 0xF4#8], .rolExt 0x12F4#16),
   ([0x7A#8, 0x12#8, 0xF4#8], .decExt 0x12F4#16),
   ([0x7C#8, 0x12#8, 0xF4#8], .incExt 0x12F4#16),
   ([0x7D#8, 0x12#8, 0xF4#8], .tstExt 0x12F4#16),
   ([0x7E#8, 0x12#8, 0xF4#8], .jmpExt 0x12F4#16),
   ([0x7F#8, 0x12#8, 0xF4#8], .clrExt 0x12F4#16)] = true := by decide +kernel

theorem test_decode_page1_row8 : agree
  [([0x80#8, 0x96#8], .subaImm 0x96#8),
   ([0x81#8, 0x96#8], .cmpaImm 0x96#8),
   ([0x82#8, 0x96#8], .sbcaImm 0x96#8),
   ([0x83#8, 0x12#8, 0xF4#8], .subdImm 0x12F4#16),
   ([0x84#8, 0x96#8], .andaImm 0x96#8),
   ([0x85#8, 0x96#8], .bitaImm 0x96#8),
   ([0x86#8, 0x96#8], .ldaImm 0x96#8),
   ([0x88#8, 0x96#8], .eoraImm 0x96#8),
   ([0x89#8, 0x96#8], .adcaImm 0x96#8),
   ([0x8A#8, 0x96#8], .oraImm 0x96#8),
   ([0x8B#8, 0x96#8], .addaImm 0x96#8),
   ([0x8C#8, 0x12#8, 0xF4#8], .cmpxImm 0x12F4#16),
   ([0x8D#8, 0x96#8], .bsr 0x96#8),
   ([0x8E#8, 0x12#8, 0xF4#8], .ldxImm 0x12F4#16)] = true := by decide +kernel

theorem test_decode_page1_row9 : agree
  [([0x90#8, 0x96#8], .subaDir 0x96#8),
   ([0x91#8, 0x96#8], .cmpaDir 0x96#8),
   ([0x92#8, 0x96#8], .sbcaDir 0x96#8),
   ([0x93#8, 0x96#8], .subdDir 0x96#8),
   ([0x94#8, 0x96#8], .andaDir 0x96#8),
   ([0x95#8, 0x96#8], .bitaDir 0x96#8),
   ([0x96#8, 0x96#8], .ldaDir 0x96#8),
   ([0x97#8, 0x96#8], .staDir 0x96#8),
   ([0x98#8, 0x96#8], .eoraDir 0x96#8),
   ([0x99#8, 0x96#8], .adcaDir 0x96#8),
   ([0x9A#8, 0x96#8], .oraDir 0x96#8),
   ([0x9B#8, 0x96#8], .addaDir 0x96#8),
   ([0x9C#8, 0x96#8], .cmpxDir 0x96#8),
   ([0x9D#8, 0x96#8], .jsrDir 0x96#8),
   ([0x9E#8, 0x96#8], .ldxDir 0x96#8),
   ([0x9F#8, 0x96#8], .stxDir 0x96#8)] = true := by decide +kernel

theorem test_decode_page1_rowA : agree
  [([0xA0#8, 0x89#8, 0x01#8, 0x2C#8], .subaIdx (.off16 .x false 0x012C#16)),
   ([0xA1#8, 0xB9#8, 0x80#8, 0x01#8], .cmpaIdx (.off16 .y true 0x8001#16)),
   ([0xA2#8, 0xAB#8], .sbcaIdx (.accD .y false)),
   ([0xA3#8, 0xFB#8], .subdIdx (.accD .s true)),
   ([0xA4#8, 0x8C#8, 0x20#8], .andaIdx (.pc8 false 0x20#8)),
   ([0xA5#8, 0x9C#8, 0xFE#8], .bitaIdx (.pc8 true 0xFE#8)),
   ([0xA6#8, 0x8D#8, 0x00#8, 0x20#8], .ldaIdx (.pc16 false 0x0020#16)),
   ([0xA7#8, 0x9D#8, 0x10#8, 0x00#8], .staIdx (.pc16 true 0x1000#16)),
   ([0xA8#8, 0x9F#8, 0xFF#8, 0xFE#8], .eoraIdx (.extInd 0xFFFE#16)),
   ([0xA9#8, 0x05#8], .adcaIdx (.off5 .x 0x05#5)),
   ([0xAA#8, 0x7E#8], .oraIdx (.off5 .s 0x1E#5)),
   ([0xAB#8, 0xA0#8], .addaIdx (.inc1 .y)),
   ([0xAC#8, 0xC1#8], .cmpxIdx (.inc2 .u false)),
   ([0xAD#8, 0x91#8], .jsrIdx (.inc2 .x true)),
   ([0xAE#8, 0xE2#8], .ldxIdx (.dec1 .s)),
   ([0xAF#8, 0x83#8], .stxIdx (.dec2 .x false))] = true := by decide +kernel

theorem test_decode_page1_rowB : agree
  [([0xB0#8, 0x12#8, 0xF4#8], .subaExt 0x12F4#16),
   ([0xB1#8, 0x12#8, 0xF4#8], .cmpaExt 0x12F4#16),
   ([0xB2#8, 0x12#8, 0xF4#8], .sbcaExt 0x12F4#16),
   ([0xB3#8, 0x12#8, 0xF4#8], .subdExt 0x12F4#16),
   ([0xB4#8, 0x12#8, 0xF4#8], .andaExt 0x12F4#16),
   ([0xB5#8, 0x12#8, 0xF4#8], .bitaExt 0x12F4#16),
   ([0xB6#8, 0x12#8, 0xF4#8], .ldaExt 0x12F4#16),
   ([0xB7#8, 0x12#8, 0xF4#8], .staExt 0x12F4#16),
   ([0xB8#8, 0x12#8, 0xF4#8], .eoraExt 0x12F4#16),
   ([0xB9#8, 0x12#8, 0xF4#8], .adcaExt 0x12F4#16),
   ([0xBA#8, 0x12#8, 0xF4#8], .oraExt 0x12F4#16),
   ([0xBB#8, 0x12#8, 0xF4#8], .addaExt 0x12F4#16),
   ([0xBC#8, 0x12#8, 0xF4#8], .cmpxExt 0x12F4#16),
   ([0xBD#8, 0x12#8, 0xF4#8], .jsrExt 0x12F4#16),
   ([0xBE#8, 0x12#8, 0xF4#8], .ldxExt 0x12F4#16),
   ([0xBF#8, 0x12#8, 0xF4#8], .stxExt 0x12F4#16)] = true := by decide +kernel

theorem test_decode_page1_rowC : agree
  [([0xC0#8, 0x96#8], .subbImm 0x96#8),
   ([0xC1#8, 0x96#8], .cmpbImm 0x96#8),
   ([0xC2#8, 0x96#8], .sbcbImm 0x96#8),
   ([0xC3#8, 0x12#8, 0xF4#8], .adddImm 0x12F4#16),
   ([0xC4#8, 0x96#8], .andbImm 0x96#8),
   ([0xC5#8, 0x96#8], .bitbImm 0x96#8),
   ([0xC6#8, 0x96#8], .ldbImm 0x96#8),
   ([0xC8#8, 0x96#8], .eorbImm 0x96#8),
   ([0xC9#8, 0x96#8], .adcbImm 0x96#8),
   ([0xCA#8, 0x96#8], .orbImm 0x96#8),
   ([0xCB#8, 0x96#8], .addbImm 0x96#8),
   ([0xCC#8, 0x12#8, 0xF4#8], .lddImm 0x12F4#16),
   ([0xCE#8, 0x12#8, 0xF4#8], .lduImm 0x12F4#16)] = true := by decide +kernel

theorem test_decode_page1_rowD : agree
  [([0xD0#8, 0x96#8], .subbDir 0x96#8),
   ([0xD1#8, 0x96#8], .cmpbDir 0x96#8),
   ([0xD2#8, 0x96#8], .sbcbDir 0x96#8),
   ([0xD3#8, 0x96#8], .adddDir 0x96#8),
   ([0xD4#8, 0x96#8], .andbDir 0x96#8),
   ([0xD5#8, 0x96#8], .bitbDir 0x96#8),
   ([0xD6#8, 0x96#8], .ldbDir 0x96#8),
   ([0xD7#8, 0x96#8], .stbDir 0x96#8),
   ([0xD8#8, 0x96#8], .eorbDir 0x96#8),
   ([0xD9#8, 0x96#8], .adcbDir 0x96#8),
   ([0xDA#8, 0x96#8], .orbDir 0x96#8),
   ([0xDB#8, 0x96#8], .addbDir 0x96#8),
   ([0xDC#8, 0x96#8], .lddDir 0x96#8),
   ([0xDD#8, 0x96#8], .stdDir 0x96#8),
   ([0xDE#8, 0x96#8], .lduDir 0x96#8),
   ([0xDF#8, 0x96#8], .stuDir 0x96#8)] = true := by decide +kernel

theorem test_decode_page1_rowE : agree
  [([0xE0#8, 0xB3#8], .subbIdx (.dec2 .y true)),
   ([0xE1#8, 0xC4#8], .cmpbIdx (.zero .u false)),
   ([0xE2#8, 0xF4#8], .sbcbIdx (.zero .s true)),
   ([0xE3#8, 0x85#8], .adddIdx (.accB .x false)),
   ([0xE4#8, 0xB5#8], .andbIdx (.accB .y true)),
   ([0xE5#8, 0xA6#8], .bitbIdx (.accA .y false)),
   ([0xE6#8, 0xD6#8], .ldbIdx (.accA .u true)),
   ([0xE7#8, 0xE8#8, 0x80#8], .stbIdx (.off8 .s false 0x80#8)),
   ([0xE8#8, 0x98#8, 0x10#8], .eorbIdx (.off8 .x true 0x10#8)),
   ([0xE9#8, 0x89#8, 0x01#8, 0x2C#8], .adcbIdx (.off16 .x false 0x012C#16)),
   ([0xEA#8, 0xB9#8, 0x80#8, 0x01#8], .orbIdx (.off16 .y true 0x8001#16)),
   ([0xEB#8, 0xAB#8], .addbIdx (.accD .y false)),
   ([0xEC#8, 0xFB#8], .lddIdx (.accD .s true)),
   ([0xED#8, 0x8C#8, 0x20#8], .stdIdx (.pc8 false 0x20#8)),
   ([0xEE#8, 0x9C#8, 0xFE#8], .lduIdx (.pc8 true 0xFE#8)),
   ([0xEF#8, 0x8D#8, 0x00#8, 0x20#8], .stuIdx (.pc16 false 0x0020#16))] = true := by decide +kernel

theorem test_decode_page1_rowF : agree
  [([0xF0#8, 0x12#8, 0xF4#8], .subbExt 0x12F4#16),
   ([0xF1#8, 0x12#8, 0xF4#8], .cmpbExt 0x12F4#16),
   ([0xF2#8, 0x12#8, 0xF4#8], .sbcbExt 0x12F4#16),
   ([0xF3#8, 0x12#8, 0xF4#8], .adddExt 0x12F4#16),
   ([0xF4#8, 0x12#8, 0xF4#8], .andbExt 0x12F4#16),
   ([0xF5#8, 0x12#8, 0xF4#8], .bitbExt 0x12F4#16),
   ([0xF6#8, 0x12#8, 0xF4#8], .ldbExt 0x12F4#16),
   ([0xF7#8, 0x12#8, 0xF4#8], .stbExt 0x12F4#16),
   ([0xF8#8, 0x12#8, 0xF4#8], .eorbExt 0x12F4#16),
   ([0xF9#8, 0x12#8, 0xF4#8], .adcbExt 0x12F4#16),
   ([0xFA#8, 0x12#8, 0xF4#8], .orbExt 0x12F4#16),
   ([0xFB#8, 0x12#8, 0xF4#8], .addbExt 0x12F4#16),
   ([0xFC#8, 0x12#8, 0xF4#8], .lddExt 0x12F4#16),
   ([0xFD#8, 0x12#8, 0xF4#8], .stdExt 0x12F4#16),
   ([0xFE#8, 0x12#8, 0xF4#8], .lduExt 0x12F4#16),
   ([0xFF#8, 0x12#8, 0xF4#8], .stuExt 0x12F4#16)] = true := by decide +kernel

theorem test_decode_page2_row2 : agree
  [([0x10#8, 0x21#8, 0x12#8, 0xF4#8], .lbrn 0x12F4#16),
   ([0x10#8, 0x22#8, 0x12#8, 0xF4#8], .lbhi 0x12F4#16),
   ([0x10#8, 0x23#8, 0x12#8, 0xF4#8], .lbls 0x12F4#16),
   ([0x10#8, 0x24#8, 0x12#8, 0xF4#8], .lbcc 0x12F4#16),
   ([0x10#8, 0x25#8, 0x12#8, 0xF4#8], .lbcs 0x12F4#16),
   ([0x10#8, 0x26#8, 0x12#8, 0xF4#8], .lbne 0x12F4#16),
   ([0x10#8, 0x27#8, 0x12#8, 0xF4#8], .lbeq 0x12F4#16),
   ([0x10#8, 0x28#8, 0x12#8, 0xF4#8], .lbvc 0x12F4#16),
   ([0x10#8, 0x29#8, 0x12#8, 0xF4#8], .lbvs 0x12F4#16),
   ([0x10#8, 0x2A#8, 0x12#8, 0xF4#8], .lbpl 0x12F4#16),
   ([0x10#8, 0x2B#8, 0x12#8, 0xF4#8], .lbmi 0x12F4#16),
   ([0x10#8, 0x2C#8, 0x12#8, 0xF4#8], .lbge 0x12F4#16),
   ([0x10#8, 0x2D#8, 0x12#8, 0xF4#8], .lblt 0x12F4#16),
   ([0x10#8, 0x2E#8, 0x12#8, 0xF4#8], .lbgt 0x12F4#16),
   ([0x10#8, 0x2F#8, 0x12#8, 0xF4#8], .lble 0x12F4#16)] = true := by decide +kernel

theorem test_decode_page2_row3 : agree
  [([0x10#8, 0x3F#8], .swi2)] = true := by decide +kernel

theorem test_decode_page2_row8 : agree
  [([0x10#8, 0x83#8, 0x12#8, 0xF4#8], .cmpdImm 0x12F4#16),
   ([0x10#8, 0x8C#8, 0x12#8, 0xF4#8], .cmpyImm 0x12F4#16),
   ([0x10#8, 0x8E#8, 0x12#8, 0xF4#8], .ldyImm 0x12F4#16)] = true := by decide +kernel

theorem test_decode_page2_row9 : agree
  [([0x10#8, 0x93#8, 0x96#8], .cmpdDir 0x96#8),
   ([0x10#8, 0x9C#8, 0x96#8], .cmpyDir 0x96#8),
   ([0x10#8, 0x9E#8, 0x96#8], .ldyDir 0x96#8),
   ([0x10#8, 0x9F#8, 0x96#8], .styDir 0x96#8)] = true := by decide +kernel

theorem test_decode_page2_rowA : agree
  [([0x10#8, 0xA3#8, 0x9D#8, 0x10#8, 0x00#8], .cmpdIdx (.pc16 true 0x1000#16)),
   ([0x10#8, 0xAC#8, 0x9F#8, 0xFF#8, 0xFE#8], .cmpyIdx (.extInd 0xFFFE#16)),
   ([0x10#8, 0xAE#8, 0x05#8], .ldyIdx (.off5 .x 0x05#5)),
   ([0x10#8, 0xAF#8, 0x7E#8], .styIdx (.off5 .s 0x1E#5))] = true := by decide +kernel

theorem test_decode_page2_rowB : agree
  [([0x10#8, 0xB3#8, 0x12#8, 0xF4#8], .cmpdExt 0x12F4#16),
   ([0x10#8, 0xBC#8, 0x12#8, 0xF4#8], .cmpyExt 0x12F4#16),
   ([0x10#8, 0xBE#8, 0x12#8, 0xF4#8], .ldyExt 0x12F4#16),
   ([0x10#8, 0xBF#8, 0x12#8, 0xF4#8], .styExt 0x12F4#16)] = true := by decide +kernel

theorem test_decode_page2_rowC : agree
  [([0x10#8, 0xCE#8, 0x12#8, 0xF4#8], .ldsImm 0x12F4#16)] = true := by decide +kernel

theorem test_decode_page2_rowD : agree
  [([0x10#8, 0xDE#8, 0x96#8], .ldsDir 0x96#8),
   ([0x10#8, 0xDF#8, 0x96#8], .stsDir 0x96#8)] = true := by decide +kernel

theorem test_decode_page2_rowE : agree
  [([0x10#8, 0xEE#8, 0xA0#8], .ldsIdx (.inc1 .y)),
   ([0x10#8, 0xEF#8, 0xC1#8], .stsIdx (.inc2 .u false))] = true := by decide +kernel

theorem test_decode_page2_rowF : agree
  [([0x10#8, 0xFE#8, 0x12#8, 0xF4#8], .ldsExt 0x12F4#16),
   ([0x10#8, 0xFF#8, 0x12#8, 0xF4#8], .stsExt 0x12F4#16)] = true := by decide +kernel

theorem test_decode_page3_row3 : agree
  [([0x11#8, 0x3F#8], .swi3)] = true := by decide +kernel

theorem test_decode_page3_row8 : agree
  [([0x11#8, 0x83#8, 0x12#8, 0xF4#8], .cmpuImm 0x12F4#16),
   ([0x11#8, 0x8C#8, 0x12#8, 0xF4#8], .cmpsImm 0x12F4#16)] = true := by decide +kernel

theorem test_decode_page3_row9 : agree
  [([0x11#8, 0x93#8, 0x96#8], .cmpuDir 0x96#8),
   ([0x11#8, 0x9C#8, 0x96#8], .cmpsDir 0x96#8)] = true := by decide +kernel

theorem test_decode_page3_rowA : agree
  [([0x11#8, 0xA3#8, 0x91#8], .cmpuIdx (.inc2 .x true)),
   ([0x11#8, 0xAC#8, 0xE2#8], .cmpsIdx (.dec1 .s))] = true := by decide +kernel

theorem test_decode_page3_rowB : agree
  [([0x11#8, 0xB3#8, 0x12#8, 0xF4#8], .cmpuExt 0x12F4#16),
   ([0x11#8, 0xBC#8, 0x12#8, 0xF4#8], .cmpsExt 0x12F4#16)] = true := by decide +kernel

theorem test_decode_indexed_forms : agree
  [([0xA6#8, 0x05#8], .ldaIdx (.off5 .x 0x05#5)),
   ([0xA6#8, 0x7E#8], .ldaIdx (.off5 .s 0x1E#5)),
   ([0xA6#8, 0xA0#8], .ldaIdx (.inc1 .y)),
   ([0xA6#8, 0xC1#8], .ldaIdx (.inc2 .u false)),
   ([0xA6#8, 0x91#8], .ldaIdx (.inc2 .x true)),
   ([0xA6#8, 0xE2#8], .ldaIdx (.dec1 .s)),
   ([0xA6#8, 0x83#8], .ldaIdx (.dec2 .x false)),
   ([0xA6#8, 0xB3#8], .ldaIdx (.dec2 .y true)),
   ([0xA6#8, 0xC4#8], .ldaIdx (.zero .u false)),
   ([0xA6#8, 0xF4#8], .ldaIdx (.zero .s true)),
   ([0xA6#8, 0x85#8], .ldaIdx (.accB .x false)),
   ([0xA6#8, 0xB5#8], .ldaIdx (.accB .y true)),
   ([0xA6#8, 0xA6#8], .ldaIdx (.accA .y false)),
   ([0xA6#8, 0xD6#8], .ldaIdx (.accA .u true)),
   ([0xA6#8, 0xE8#8, 0x80#8], .ldaIdx (.off8 .s false 0x80#8)),
   ([0xA6#8, 0x98#8, 0x10#8], .ldaIdx (.off8 .x true 0x10#8)),
   ([0xA6#8, 0x89#8, 0x01#8, 0x2C#8], .ldaIdx (.off16 .x false 0x012C#16)),
   ([0xA6#8, 0xB9#8, 0x80#8, 0x01#8], .ldaIdx (.off16 .y true 0x8001#16)),
   ([0xA6#8, 0xAB#8], .ldaIdx (.accD .y false)),
   ([0xA6#8, 0xFB#8], .ldaIdx (.accD .s true)),
   ([0xA6#8, 0x8C#8, 0x20#8], .ldaIdx (.pc8 false 0x20#8)),
   ([0xA6#8, 0x9C#8, 0xFE#8], .ldaIdx (.pc8 true 0xFE#8)),
   ([0xA6#8, 0x8D#8, 0x00#8, 0x20#8], .ldaIdx (.pc16 false 0x0020#16)),
   ([0xA6#8, 0x9D#8, 0x10#8, 0x00#8], .ldaIdx (.pc16 true 0x1000#16)),
   ([0xA6#8, 0x9F#8, 0xFF#8, 0xFE#8], .ldaIdx (.extInd 0xFFFE#16))] = true := by decide +kernel

theorem test_decode_register_codes : agree
  [([0x1F#8, 0x12#8], .tfr .x .y), ([0x1F#8, 0x34#8], .tfr .u .s), ([0x1F#8, 0x50#8], .tfr .pc .d),
   ([0x1F#8, 0x9A#8], .tfr .b .cc), ([0x1F#8, 0xB8#8], .tfr .dp .a), ([0x1E#8, 0x89#8], .exg .a .b)] = true := by
  decide

/-- The don't-care bits of a PC-relative postbyte are ignored (R112). -/
theorem test_decode_pcr_dont_care :
    decode [0x30#8, 0xEC#8, 0x04#8] = .ok (.leax (.pc8 false 0x04#8), []) := by decide +kernel

/-- The 33 unused opcodes of Page 1 (R125). -/
theorem test_unused_page1 :
    ([0x01#8, 0x02#8, 0x05#8, 0x0B#8, 0x14#8, 0x15#8, 0x18#8, 0x1B#8, 0x38#8, 0x3E#8, 0x41#8, 0x42#8, 0x45#8, 0x4B#8,
      0x4E#8, 0x51#8, 0x52#8, 0x55#8, 0x5B#8, 0x5E#8, 0x61#8, 0x62#8, 0x65#8, 0x6B#8, 0x71#8, 0x72#8, 0x75#8, 0x7B#8,
      0x87#8, 0x8F#8, 0xC7#8, 0xCD#8, 0xCF#8] : List Byte).all
      (fun b => match decode [b, 0x00#8, 0x00#8] with
        | .error .unusedOpcode => true
        | _ => false) = true := by decide +kernel

/-- T3.10.6 to T3.10.8: Page 1 opcodes after a prebyte. -/
theorem test_unused_after_prebyte :
    decode [0x10#8, 0x86#8, 0x55#8] = .error .unusedOpcode ∧
    decode [0x10#8, 0x20#8, 0x00#8, 0x10#8] = .error .unusedOpcode ∧
    decode [0x11#8, 0x8E#8, 0x00#8, 0x00#8] = .error .unusedOpcode := by decide +kernel

/-- R116: an indirect increment by one, and a postbyte with no row. -/
theorem test_undefined_postbytes :
    decode [0xA6#8, 0x90#8] = .error .undefinedPostbyte ∧ decode [0xA6#8, 0x8F#8, 0x12#8, 0x34#8] = .error .undefinedPostbyte := by
  decide

/-- R120: unlike sizes, and an undefined code. -/
theorem test_invalid_pairs :
    decode [0x1F#8, 0x81#8] = .error .invalidRegisterPair ∧ decode [0x1E#8, 0x66#8] = .error .invalidRegisterPair := by
  decide

/-- The table's number of LDY immediate, its operand zero, and of LDA immediate. -/
theorem test_table_words :
    decodeTableWord 16 0x108E = some (.ldyImm 0x0000#16) ∧ decodeTableWord 8 0x86 = some (.ldaImm 0x00#8) ∧
    decodeTableWord 8 0x87 = none := by decide +kernel

/-- A table word placed for the first step after reset is the instruction that step runs. -/
theorem test_withFetchWord :
    (match step (State.reset.withFetchWord 16 0x103F) with
     | .next t => t.s == 0xFFF4#16 && t.cc.e && t.read8 0xFFFF#16 == 0x02#8
     | _ => false) = true := by decide +kernel

/-! ### One step, from the spec's vectors -/

/-- The start state of the vectors: everything zero, PC at $1000 (95_test_vectors.md section 1). -/
def blank : State :=
  { State.reset with pc := 0x1000#16, cc := CC.ofByte 0x00#8 }

/-- Store the bytes at PC, run one step, and check the state after it. -/
def after (bytes : List Byte) (st : State) (check : State → Bool) : Bool :=
  match step { st with mem := st.mem.writeAll st.pc bytes } with
  | .next t => check t
  | .fault _ => false
  | .refused _ => false

/-- T3.1.1 -/
theorem test_suba : after [0x80#8, 0xC3#8] { blank with a := 0x5A#8, cc := CC.ofByte 0x01#8 } (fun t => t.a == 0x97#8 && (t.cc.n, t.cc.z, t.cc.v, t.cc.c) == (true, false, true, true) && t.pc == 0x1002#16) = true := by decide +kernel

/-- T3.1.30 -/
theorem test_sbca : after [0x82#8, 0xFF#8] { blank with a := 0x00#8, cc := CC.ofByte 0x01#8 } (fun t => t.a == 0x00#8 && (t.cc.n, t.cc.z, t.cc.v, t.cc.c) == (false, true, false, true)) = true := by decide +kernel

/-- T3.1.31 -/
theorem test_sbcb : after [0xC2#8, 0x7F#8] { blank with b := 0x80#8, cc := CC.ofByte 0x01#8 } (fun t => t.b == 0x00#8 && (t.cc.n, t.cc.z, t.cc.v, t.cc.c) == (false, true, true, false)) = true := by decide +kernel

/-- T3.1.57 -/
theorem test_subb_indirect : after [0xE0#8, 0xD4#8] { blank with b := 0x10#8, u := 0x3000#16, mem := [(12288, 0x40#8), (16384, 0x01#8)] } (fun t => t.b == 0x0F#8 && (t.cc.n, t.cc.z, t.cc.v, t.cc.c) == (false, false, false, false)) = true := by decide +kernel

/-- T3.1.33 -/
theorem test_cmpa : after [0x81#8, 0x80#8] { blank with a := 0x7F#8 } (fun t => t.a == 0x7F#8 && (t.cc.n, t.cc.z, t.cc.v, t.cc.c) == (true, false, true, true)) = true := by decide +kernel

/-- T3.1.36 -/
theorem test_cmpb : after [0xC1#8, 0x01#8] { blank with b := 0x80#8 } (fun t => t.b == 0x80#8 && (t.cc.n, t.cc.z, t.cc.v, t.cc.c) == (false, false, true, false)) = true := by decide +kernel

/-- T3.1.21 -/
theorem test_adca : after [0x89#8, 0x7F#8] { blank with a := 0x00#8, cc := CC.ofByte 0x01#8 } (fun t => t.a == 0x80#8 && t.cc.toByte == 0x2A#8) = true := by decide +kernel

/-- T3.1.22 -/
theorem test_adcb : after [0xC9#8, 0xFF#8] { blank with b := 0xFF#8, cc := CC.ofByte 0x01#8 } (fun t => t.b == 0xFF#8 && t.cc.toByte == 0x29#8) = true := by decide +kernel

/-- T3.1.16 -/
theorem test_adda : after [0x8B#8, 0x80#8] { blank with a := 0x80#8 } (fun t => t.a == 0x00#8 && t.cc.toByte == 0x07#8) = true := by decide +kernel

/-- T3.1.50 -/
theorem test_adda_direct_page : after [0x9B#8, 0x34#8] { blank with a := 0x11#8, dp := 0x20#8, mem := [(52, 0x99#8), (8244, 0x22#8)] } (fun t => t.a == 0x33#8 && t.cc.toByte == 0x00#8) = true := by decide +kernel

/-- T3.1.19 -/
theorem test_addb : after [0xCB#8, 0xFF#8] { blank with b := 0xFF#8 } (fun t => t.b == 0xFE#8 && t.cc.toByte == 0x29#8) = true := by decide +kernel

/-- T3.1.37 -/
theorem test_anda : after [0x84#8, 0x00#8] { blank with a := 0xFF#8, cc := CC.ofByte 0x2B#8 } (fun t => t.a == 0x00#8 && t.cc.toByte == 0x25#8) = true := by decide +kernel

/-- T3.1.38 -/
theorem test_andb : after [0xC4#8, 0x80#8] { blank with b := 0xFF#8 } (fun t => t.b == 0x80#8 && t.cc.toByte == 0x08#8) = true := by decide +kernel

/-- T3.1.39 -/
theorem test_bita : after [0x85#8, 0x80#8] { blank with a := 0x80#8, cc := CC.ofByte 0x03#8 } (fun t => t.a == 0x80#8 && t.cc.toByte == 0x09#8) = true := by decide +kernel

/-- T3.1.40 -/
theorem test_bitb : after [0xC5#8, 0x0F#8] { blank with b := 0xF0#8 } (fun t => t.b == 0xF0#8 && t.cc.toByte == 0x04#8) = true := by decide +kernel

/-- T3.1.41 -/
theorem test_eora : after [0x88#8, 0xFF#8] { blank with a := 0xFF#8 } (fun t => t.a == 0x00#8 && t.cc.toByte == 0x04#8) = true := by decide +kernel

/-- T3.1.42 -/
theorem test_eorb : after [0xC8#8, 0xFF#8] { blank with b := 0x0F#8 } (fun t => t.b == 0xF0#8 && t.cc.toByte == 0x08#8) = true := by decide +kernel

/-- T3.1.43 -/
theorem test_ora : after [0x8A#8, 0x00#8] { blank with a := 0x00#8, cc := CC.ofByte 0x0A#8 } (fun t => t.a == 0x00#8 && t.cc.toByte == 0x04#8) = true := by decide +kernel

/-- T3.1.44 -/
theorem test_orb : after [0xCA#8, 0x81#8] { blank with b := 0x02#8 } (fun t => t.b == 0x83#8 && t.cc.toByte == 0x08#8) = true := by decide +kernel

/-- T3.1.45 -/
theorem test_lda : after [0x86#8, 0x00#8] { blank with a := 0x77#8, cc := CC.ofByte 0x0B#8 } (fun t => t.a == 0x00#8 && t.cc.toByte == 0x05#8) = true := by decide +kernel

/-- The example of 95_test_vectors.md section 2.3 -/
theorem test_lda_indexed_indirect : after [0xA6#8, 0x98#8, 0x10#8] { blank with a := 0x55#8, x := 0xF000#16, mem := [(61456, 0xF1#8), (61457, 0x50#8), (61776, 0xAA#8)] } (fun t => t.a == 0xAA#8 && t.x == 0xF000#16 && t.cc.toByte == 0x08#8) = true := by decide +kernel

/-- T3.1.53 -/
theorem test_ldb_top_of_memory : after [0xD6#8, 0xFF#8] { blank with dp := 0xFF#8, mem := [(65535, 0x42#8)] } (fun t => t.b == 0x42#8 && t.cc.toByte == 0x00#8) = true := by decide +kernel

/-- T3.1.55 -/
theorem test_sta : after [0x97#8, 0x00#8] { blank with a := 0x5A#8, dp := 0xFF#8 } (fun t => t.read8 0xFF00#16 == 0x5A#8 && t.cc.toByte == 0x00#8) = true := by decide +kernel

/-- T3.1.56 -/
theorem test_stb_predecrement : after [0xE7#8, 0xA2#8] { blank with b := 0x01#8, y := 0x0000#16 } (fun t => t.y == 0xFFFF#16 && t.read8 0xFFFF#16 == 0x01#8) = true := by decide +kernel

/-- T3.2.3 -/
theorem test_nega : after [0x40#8] { blank with a := 0x80#8 } (fun t => t.a == 0x80#8 && (t.cc.n, t.cc.z, t.cc.v, t.cc.c) == (true, false, true, true)) = true := by decide +kernel

/-- T3.2.39 -/
theorem test_com_memory : after [0x63#8, 0x84#8] { blank with x := 0x2010#16, mem := [(8208, 0xF0#8)] } (fun t => t.read8 0x2010#16 == 0x0F#8 && t.cc.toByte == 0x01#8) = true := by decide +kernel

/-- T3.2.8 -/
theorem test_lsrb : after [0x54#8] { blank with b := 0x01#8, cc := CC.ofByte 0x0A#8 } (fun t => t.b == 0x00#8 && t.cc.toByte == 0x07#8) = true := by decide +kernel

/-- T3.2.41 -/
theorem test_ror_memory : after [0x66#8, 0x80#8] { blank with x := 0x2010#16, cc := CC.ofByte 0x01#8, mem := [(8208, 0x02#8)] } (fun t => t.x == 0x2011#16 && t.read8 0x2010#16 == 0x81#8 && t.cc.toByte == 0x08#8) = true := by decide +kernel

/-- T3.2.15 -/
theorem test_asra : after [0x47#8] { blank with a := 0x81#8, cc := CC.ofByte 0x02#8 } (fun t => t.a == 0xC0#8 && (t.cc.n, t.cc.z, t.cc.v, t.cc.c) == (true, false, true, true)) = true := by decide +kernel

/-- T3.2.19 -/
theorem test_asla : after [0x48#8] { blank with a := 0x40#8 } (fun t => t.a == 0x80#8 && (t.cc.n, t.cc.z, t.cc.v, t.cc.c) == (true, false, true, false)) = true := by decide +kernel

/-- T3.2.44 -/
theorem test_rol_memory : after [0x69#8, 0xB4#8] { blank with y := 0x3000#16, mem := [(8208, 0x81#8), (12288, 0x20#8), (12289, 0x10#8)] } (fun t => t.read8 0x2010#16 == 0x02#8 && t.cc.toByte == 0x03#8) = true := by decide +kernel

/-- The example of 95_test_vectors.md section 2.2 -/
theorem test_dec_memory : after [0x7A#8, 0xA0#8, 0x00#8] { blank with mem := [(40960, 0x80#8)] } (fun t => t.read8 0xA000#16 == 0x7F#8 && t.cc.toByte == 0x02#8) = true := by decide +kernel

/-- T3.2.31 -/
theorem test_incb : after [0x5C#8] { blank with b := 0x7F#8, cc := CC.ofByte 0x01#8 } (fun t => t.b == 0x80#8 && t.cc.toByte == 0x0B#8) = true := by decide +kernel

/-- T3.2.47 -/
theorem test_tst_memory : after [0x7D#8, 0x20#8, 0x10#8] { blank with cc := CC.ofByte 0x03#8, mem := [(8208, 0x80#8)] } (fun t => t.read8 0x2010#16 == 0x80#8 && t.cc.toByte == 0x09#8) = true := by decide +kernel

/-- T3.2.36 -/
theorem test_clra : after [0x4F#8] { blank with a := 0x5A#8, cc := CC.ofByte 0xFF#8 } (fun t => t.a == 0x00#8 && t.cc.toByte == 0xF4#8) = true := by decide +kernel

/-- T3.2.58 -/
theorem test_daa : after [0x19#8] { blank with a := 0x9A#8 } (fun t => t.a == 0x00#8 && t.cc.c && t.cc.z && !t.cc.n) = true := by decide +kernel

/-- T3.2.60 -/
theorem test_daa_half_carry : after [0x19#8] { blank with a := 0x00#8, cc := CC.ofByte 0x20#8 } (fun t => t.a == 0x06#8 && t.cc.h == true && !t.cc.c) = true := by decide +kernel

/-- The example of R247 -/
theorem test_mul : after [0x3D#8] { blank with a := 0x0C#8, b := 0x64#8 } (fun t => t.a == 0x04#8 && t.b == 0xB0#8 && t.cc.toByte == 0x01#8) = true := by decide +kernel

/-- T3.3.1 -/
theorem test_addd : after [0xC3#8, 0x00#8, 0x01#8] { blank with a := 0xFF#8, b := 0xFF#8, cc := CC.ofByte 0x20#8 } (fun t => t.a == 0x00#8 && t.b == 0x00#8 && t.cc.toByte == 0x25#8) = true := by decide +kernel

/-- R282 and R13 -/
theorem test_subd : after [0x83#8, 0x00#8, 0x01#8] { blank with a := 0x80#8, b := 0x00#8 } (fun t => t.a == 0x7F#8 && t.b == 0xFF#8 && (t.cc.n, t.cc.z, t.cc.v, t.cc.c) == (false, false, true, false)) = true := by decide +kernel

/-- R283 and R13 -/
theorem test_cmpd : after [0x10#8, 0x83#8, 0x00#8, 0x01#8] { blank with a := 0x00#8, b := 0x00#8 } (fun t => t.a == 0x00#8 && t.b == 0x00#8 && (t.cc.n, t.cc.z, t.cc.v, t.cc.c) == (true, false, false, true) && t.pc == 0x1004#16) = true := by decide +kernel

/-- R66: the low byte of a word at FFFF is at 0000 -/
theorem test_ldd_wraps : after [0xFC#8, 0xFF#8, 0xFF#8] { blank with mem := [(0, 0x34#8), (65535, 0x12#8)] } (fun t => t.a == 0x12#8 && t.b == 0x34#8 && t.cc.toByte == 0x00#8) = true := by decide +kernel

/-- R285 -/
theorem test_std : after [0xFD#8, 0x20#8, 0x00#8] { blank with a := 0x80#8, b := 0x01#8 } (fun t => t.read8 0x2000#16 == 0x80#8 && t.read8 0x2001#16 == 0x01#8 && t.cc.toByte == 0x08#8) = true := by decide +kernel

/-- R287 -/
theorem test_sex : after [0x1D#8] { blank with b := 0x80#8, cc := CC.ofByte 0x23#8 } (fun t => t.a == 0xFF#8 && t.b == 0x80#8 && t.cc.h == true && t.cc.n && !t.cc.z && t.cc.c) = true := by decide +kernel

/-- R301 and R13 -/
theorem test_cmpx : after [0x8C#8, 0x80#8, 0x00#8] { blank with x := 0x7FFF#16 } (fun t => t.x == 0x7FFF#16 && (t.cc.n, t.cc.z, t.cc.v, t.cc.c) == (true, false, true, true)) = true := by decide +kernel

/-- T3.10.5 -/
theorem test_cmpu_prebytes : after [0x11#8, 0x11#8, 0x10#8, 0x83#8, 0x00#8, 0x00#8] blank (fun t => t.cc.toByte == 0x04#8 && t.pc == 0x1006#16) = true := by decide +kernel

/-- T3.10.2 -/
theorem test_ldy_repeated_prebyte : after [0x10#8, 0x10#8, 0x8E#8, 0x12#8, 0x34#8] blank (fun t => t.y == 0x1234#16 && t.pc == 0x1005#16) = true := by decide +kernel

/-- T3.9.3 -/
theorem test_lds_arms_nmi : after [0x10#8, 0xCE#8, 0x80#8, 0x00#8] blank (fun t => t.s == 0x8000#16 && t.cc.toByte == 0x08#8 && t.nmiArmed) = true := by decide +kernel

/-- The example of 95_test_vectors.md section 2.4 -/
theorem test_stx_increments_first : after [0xAF#8, 0x81#8] { blank with x := 0x0000#16 } (fun t => t.x == 0x0002#16 && t.read8 0x0000#16 == 0x00#8 && t.read8 0x0001#16 == 0x02#8 && t.cc.toByte == 0x00#8) = true := by decide +kernel

/-- T2.5.1 -/
theorem test_leax_postincrement : after [0x30#8, 0x80#8] { blank with x := 0x2000#16 } (fun t => t.x == 0x2000#16 && t.cc.toByte == 0x00#8) = true := by decide +kernel

/-- T2.5.2 -/
theorem test_leax_predecrement : after [0x30#8, 0x82#8] { blank with x := 0x2000#16 } (fun t => t.x == 0x1FFF#16 && t.cc.toByte == 0x00#8) = true := by decide +kernel

/-- The example of R315 -/
theorem test_leay_signed_accumulator : after [0x31#8, 0xA6#8] { blank with y := 0x1000#16, a := 0xFF#8 } (fun t => t.y == 0x0FFF#16 && t.cc.toByte == 0x00#8) = true := by decide +kernel

/-- T2.5.8 -/
theorem test_leas : after [0x32#8, 0xC2#8] { blank with u := 0x4000#16 } (fun t => t.u == 0x3FFF#16 && t.s == 0x3FFF#16 && t.cc.toByte == 0x00#8 && t.nmiArmed) = true := by decide +kernel

/-- The example of R318 -/
theorem test_abx_unsigned : after [0x3A#8] { blank with x := 0x10F0#16, b := 0xFF#8 } (fun t => t.x == 0x11EF#16 && t.cc.toByte == 0x00#8) = true := by decide +kernel

/-- The example of R322 -/
theorem test_pshu : after [0x36#8, 0x41#8] { blank with u := 0xC000#16, s := 0xF000#16, cc := CC.ofByte 0xD0#8 } (fun t => t.u == 0xBFFD#16 && t.s == 0xF000#16 && t.read8 0xBFFD#16 == 0xD0#8 && t.read8 0xBFFE#16 == 0xF0#8 && t.read8 0xBFFF#16 == 0x00#8 && !t.nmiArmed) = true := by decide +kernel

/-- The example of R324 -/
theorem test_pulu : after [0x37#8, 0x36#8] { blank with u := 0xC000#16, mem := [(49152, 0x01#8), (49153, 0x02#8), (49154, 0x03#8), (49155, 0x04#8), (49156, 0x05#8), (49157, 0x06#8)] } (fun t => t.a == 0x01#8 && t.b == 0x02#8 && t.x == 0x0304#16 && t.y == 0x0506#16 && t.u == 0xC006#16 && t.cc.toByte == 0x00#8) = true := by decide +kernel

/-- R325 (a) -/
theorem test_pshs_wraps : after [0x34#8, 0x10#8] { blank with s := 0x0001#16, x := 0x1234#16 } (fun t => t.s == 0xFFFF#16 && t.read8 0xFFFF#16 == 0x12#8 && t.read8 0x0000#16 == 0x34#8) = true := by decide +kernel

/-- R323 -/
theorem test_puls_pc_last : after [0x35#8, 0x81#8] { blank with s := 0x8000#16, mem := [(32768, 0x50#8), (32769, 0x20#8), (32770, 0x05#8)] } (fun t => t.s == 0x8003#16 && t.pc == 0x2005#16 && t.cc.toByte == 0x50#8) = true := by decide +kernel

/-- The example of R326 -/
theorem test_tfr : after [0x1F#8, 0x8B#8] { blank with a := 0x20#8 } (fun t => t.a == 0x20#8 && t.dp == 0x20#8 && t.cc.toByte == 0x00#8) = true := by decide +kernel

/-- The example of R327 -/
theorem test_exg : after [0x1E#8, 0x89#8] { blank with a := 0x12#8, b := 0x34#8 } (fun t => t.a == 0x34#8 && t.b == 0x12#8 && t.cc.toByte == 0x00#8) = true := by decide +kernel

/-- T3.6.2 -/
theorem test_bra_wraps : after [0x20#8, 0x80#8] blank (fun t => t.pc == 0x0F82#16) = true := by decide +kernel

/-- T3.6.13 -/
theorem test_blt_not_taken : after [0x2D#8, 0x04#8] { blank with cc := CC.ofByte 0x0A#8 } (fun t => t.pc == 0x1002#16) = true := by decide +kernel

/-- T3.6.22 -/
theorem test_lbcs : after [0x10#8, 0x25#8, 0x80#8, 0x00#8] { blank with cc := CC.ofByte 0x01#8 } (fun t => t.pc == 0x9004#16) = true := by decide +kernel

/-- T3.6.26 -/
theorem test_bsr : after [0x8D#8, 0xFE#8] { blank with s := 0x8000#16 } (fun t => t.s == 0x7FFE#16 && t.pc == 0x1000#16 && t.read8 0x7FFF#16 == 0x02#8 && t.read8 0x7FFE#16 == 0x10#8) = true := by decide +kernel

/-- T3.6.29 -/
theorem test_lbsr : after [0x17#8, 0xEF#8, 0xFD#8] { blank with s := 0x8000#16 } (fun t => t.s == 0x7FFE#16 && t.pc == 0x0000#16 && t.read8 0x7FFF#16 == 0x03#8 && t.read8 0x7FFE#16 == 0x10#8) = true := by decide +kernel

/-- T3.7.1 -/
theorem test_andcc : after [0x1C#8, 0xAF#8] { blank with cc := CC.ofByte 0xFF#8 } (fun t => t.cc.toByte == 0xAF#8) = true := by decide +kernel

/-- T3.7.4 -/
theorem test_orcc : after [0x1A#8, 0x50#8] blank (fun t => t.cc.toByte == 0x50#8) = true := by decide +kernel

/-- T3.7.7 -/
theorem test_nop : after [0x12#8] { blank with cc := CC.ofByte 0xFF#8 } (fun t => t.cc.toByte == 0xFF#8 && t.pc == 0x1001#16) = true := by decide +kernel

/-- T3.7.12 -/
theorem test_jmp_indirect : after [0x6E#8, 0x9F#8, 0xFF#8, 0xFE#8] { blank with mem := [(65534, 0xC0#8)] } (fun t => t.pc == 0xC000#16) = true := by decide +kernel

/-- T3.7.18 -/
theorem test_jsr_stack_indexed : after [0xAD#8, 0xE3#8] { blank with s := 0x8000#16 } (fun t => t.s == 0x7FFC#16 && t.pc == 0x7FFE#16 && t.read8 0x7FFD#16 == 0x02#8 && t.read8 0x7FFC#16 == 0x10#8) = true := by decide +kernel

/-- T3.7.21 -/
theorem test_rts_wraps : after [0x39#8] { blank with s := 0xFFFF#16, mem := [(0, 0x05#8), (65535, 0x20#8)] } (fun t => t.s == 0x0001#16 && t.pc == 0x2005#16) = true := by decide +kernel

/-- T3.7.22 -/
theorem test_swi : after [0x3F#8] { blank with s := 0x8000#16, a := 0xAA#8, u := 0x5566#16, cc := CC.ofByte 0x05#8, mem := [(65530, 0xEA#8)] } (fun t => t.s == 0x7FF4#16 && t.pc == 0xEA00#16 && t.cc.toByte == 0xD5#8 && t.read8 0x7FFF#16 == 0x01#8 && t.read8 0x7FFE#16 == 0x10#8 && t.read8 0x7FFC#16 == 0x55#8 && t.read8 0x7FF5#16 == 0xAA#8 && t.read8 0x7FF4#16 == 0x85#8) = true := by decide +kernel

/-- T3.10.3 -/
theorem test_swi2_first_prebyte : after [0x10#8, 0x11#8, 0x3F#8] { blank with s := 0x8000#16, mem := [(65522, 0xE2#8), (65524, 0xE4#8)] } (fun t => t.s == 0x7FF4#16 && t.pc == 0xE400#16 && t.cc.toByte == 0x80#8 && t.read8 0x7FFF#16 == 0x03#8) = true := by decide +kernel

/-- T3.7.24 -/
theorem test_swi3 : after [0x11#8, 0x3F#8] { blank with s := 0x8000#16, cc := CC.ofByte 0x55#8, mem := [(65522, 0xE2#8)] } (fun t => t.s == 0x7FF4#16 && t.pc == 0xE200#16 && t.cc.toByte == 0xD5#8 && t.read8 0x7FF4#16 == 0xD5#8) = true := by decide +kernel

/-- T3.7.25 -/
theorem test_rti_entire : after [0x3B#8] { blank with s := 0x7FF4#16, cc := CC.ofByte 0x50#8, mem := [(32756, 0x85#8), (32757, 0xAA#8), (32764, 0x55#8), (32765, 0x66#8), (32766, 0x10#8), (32767, 0x01#8)] } (fun t => t.a == 0xAA#8 && t.u == 0x5566#16 && t.pc == 0x1001#16 && t.s == 0x8000#16 && t.cc.toByte == 0x85#8) = true := by decide +kernel

/-- T3.7.27 -/
theorem test_rti_subset : after [0x3B#8] { blank with s := 0x7FFD#16, cc := CC.ofByte 0x80#8, mem := [(32766, 0x20#8)] } (fun t => t.s == 0x8000#16 && t.pc == 0x2000#16 && t.cc.toByte == 0x00#8) = true := by decide +kernel

/-- T3.7.28, up to the wait -/
theorem test_cwai : after [0x3C#8, 0xEF#8] { blank with s := 0x8000#16, cc := CC.ofByte 0x50#8 } (fun t => t.s == 0x7FF4#16 && t.cc.toByte == 0xC0#8 && t.read8 0x7FFF#16 == 0x02#8 && t.read8 0x7FF4#16 == 0xC0#8 && t.run == .cwaiWait) = true := by decide +kernel

/-- T3.7.32, up to the wait -/
theorem test_sync : after [0x13#8] { blank with s := 0x8000#16, cc := CC.ofByte 0x50#8 } (fun t => t.s == 0x8000#16 && t.pc == 0x1001#16 && t.cc.toByte == 0x50#8 && t.run == .sync) = true := by decide +kernel

/-! ### The input lines, from sections 3.7 to 3.9 of 97_derived_vectors_control.md -/

/-- The common start of section 3.8. -/
def base : State :=
  { blank with
    pc := 0x1234#16, s := 0x8000#16, a := 0xAA#8, b := 0xBB#8, dp := 0xDD#8
    x := 0x1122#16, y := 0x3344#16, u := 0x5566#16, nmiArmed := true
    mem := [(0x1234, 0x12#8), (0xFFF6, 0xF6#8), (0xFFF8, 0xF8#8), (0xFFFC, 0xFC#8), (0xFFFE, 0xC0#8)] }

def irqLow : Sample := { Sample.quiet with irq := true }
def firqLow : Sample := { Sample.quiet with firq := true }
def nmiFalls : Sample := { Sample.quiet with nmiEdge := true }
def haltLow : Sample := { Sample.quiet with halt := true }
def resetLow : Sample := { Sample.quiet with reset := true }

/-- Run one step with one sample of the lines and check the state after it. -/
def lines (p : Sample) (st : State) (check : State → Bool) : Bool :=
  match step { st with inputs := [p] } with
  | .next t => check t
  | .fault _ => false
  | .refused _ => false

/-- T3.8.1 -/
theorem test_irq_entry : lines irqLow { base with cc := CC.ofByte 0x05#8 } (fun t =>
    t.s == 0x7FF4#16 && t.pc == 0xF800#16 && t.cc.toByte == 0x95#8 && t.read8 0x7FFF#16 == 0x34#8 &&
    t.read8 0x7FFA#16 == 0x33#8 && t.read8 0x7FF4#16 == 0x85#8) = true := by decide +kernel
/-- T3.8.2 -/
theorem test_firq_entry : lines firqLow { base with cc := CC.ofByte 0x05#8 } (fun t =>
    t.s == 0x7FFD#16 && t.pc == 0xF600#16 && t.cc.toByte == 0x55#8 && t.read8 0x7FFE#16 == 0x12#8 &&
    t.read8 0x7FFD#16 == 0x05#8 && t.read8 0x7FFC#16 == 0x00#8) = true := by decide +kernel
/-- T3.8.3 -/
theorem test_nmi_entry : lines Sample.quiet { base with cc := CC.ofByte 0x55#8, nmiPending := true } (fun t =>
    t.s == 0x7FF4#16 && t.pc == 0xFC00#16 && t.cc.toByte == 0xD5#8 && t.read8 0x7FF4#16 == 0xD5#8 &&
    !t.nmiPending) = true := by decide +kernel
/-- T3.8.4: the NOP at $1234 runs. -/
theorem test_irq_masked : lines irqLow { base with cc := CC.ofByte 0x10#8 } (fun t =>
    t.pc == 0x1235#16 && t.s == 0x8000#16 && t.cc.toByte == 0x10#8) = true := by decide +kernel
/-- T3.8.7 -/
theorem test_firq_before_irq : lines { irqLow with firq := true } base (fun t => t.pc == 0xF600#16) = true := by
  decide +kernel
/-- T3.8.8 -/
theorem test_nmi_before_firq : lines { irqLow with firq := true, nmiEdge := true } base (fun t =>
    t.pc == 0xFC00#16 && t.cc.toByte == 0xD0#8 && !t.nmiPending) = true := by decide +kernel
/-- T3.8.11 -/
theorem test_halt_before_irq : lines { irqLow with halt := true } base (fun t =>
    t.run == .halted && t.pc == 0x1234#16 && t.s == 0x8000#16 && t.busStatus == some (true, true)) = true := by
  decide +kernel
/-- T3.8.12 and T3.9.1, the fall of the line. -/
theorem test_reset_falls : lines { irqLow with reset := true } base (fun t =>
    t.run == .inReset && t.s == 0x8000#16) = true := by decide +kernel
/-- T3.9.1, the release of the line. -/
theorem test_reset_released : lines irqLow { base with run := .inReset, nmiPending := true } (fun t =>
    t.pc == 0xC000#16 && t.dp == 0x00#8 && t.cc.i && t.cc.f && !t.nmiArmed && !t.nmiPending && t.run == .running &&
    t.read8 0x1234#16 == 0x12#8) = true := by decide +kernel
/-- T3.7.28, the end of the wait. -/
theorem test_cwai_irq : lines irqLow { base with run := .cwaiWait, cc := CC.ofByte 0xC0#8 } (fun t =>
    t.pc == 0xF800#16 && t.s == 0x8000#16 && t.cc.toByte == 0xD0#8 && t.run == .running) = true := by decide +kernel
/-- T3.7.30: both lines are masked. -/
theorem test_cwai_masked : lines { irqLow with firq := true } { base with run := .cwaiWait, cc := CC.ofByte 0xD0#8 }
    (fun t => t.run == .cwaiWait && t.pc == 0x1234#16) = true := by decide +kernel
/-- T3.7.32: a masked line ends the Sync state. -/
theorem test_sync_masked : lines irqLow { base with run := .sync, cc := CC.ofByte 0x50#8 } (fun t =>
    t.run == .running && t.pc == 0x1234#16 && t.s == 0x8000#16 && t.cc.toByte == 0x50#8) = true := by decide +kernel
/-- T3.7.34: an unmasked FIRQ is taken. -/
theorem test_sync_firq : lines firqLow { base with run := .sync, cc := CC.ofByte 0x10#8 } (fun t =>
    t.pc == 0xF600#16 && t.s == 0x7FFD#16 && t.cc.toByte == 0x50#8 && t.read8 0x7FFD#16 == 0x10#8) = true := by
  decide +kernel
/-- R460 and D13: HALT low in a wait state is refused. -/
theorem test_halt_in_sync : (match step { base with run := .sync, inputs := [haltLow] } with
    | .refused .haltDuringWait => true
    | _ => false) = true := by decide +kernel
/-- R511 and R512: LDA indexed indirect takes 4 + 4 cycles, RTI of an entire frame 15. -/
theorem test_cycles :
    { blank with mem := [(0x1000, 0xA6#8), (0x1001, 0x98#8)] }.cyclesAtPC = some (.exactly 8) ∧
    { blank with mem := [(0x1000, 0x3B#8), (0x8000, 0x80#8)], s := 0x8000#16 }.cyclesAtPC = some (.exactly 15) := by
  decide +kernel

/-! ### The platform and the status outputs -/

/-- ROM from $2000 on, a device at $FF00, and LDS alone arming NMI. -/
def board : Platform :=
  { regions := [{ base := 0x2000#16, size := 0x1000, kind := .rom }, { base := 0xFF00#16, size := 1, kind := .device }]
    nmiArmSet := .ldsOnly }

/-- R62: a store to ROM changes nothing, a store beside it does. -/
theorem test_rom : after [0xB7#8, 0x2F#8, 0xFF#8] { blank with a := 0x55#8, platform := board } (fun t =>
      t.read8 0x2FFF#16 == 0x00#8 && t.pc == 0x1003#16) = true ∧
    after [0xB7#8, 0x30#8, 0x00#8] { blank with a := 0x55#8, platform := board } (fun t =>
      t.read8 0x3000#16 == 0x55#8) = true := by decide +kernel
/-- R62: a load from a device takes the platform's answer and goes on; a store to it leaves no byte in memory. -/
theorem test_device :
    exec (.ldaExt 0xFF00#16) { blank with platform := board } =
      .next (ld8 .a (Config.platformRead .data 0 0xFF00#16) { blank with platform := board }) ∧
    exec (.staExt 0xFF00#16) { blank with a := 0x55#8, platform := board } =
      .next { blank with a := 0x55#8, platform := board, cc := { blank.cc with n := false, z := false, v := false } } :=
  ⟨rfl, rfl⟩
/-- D9: under the narrow set LEAS leaves NMI disarmed and LDS arms it. -/
theorem test_arm_set :
    after [0x32#8, 0x60#8] { blank with platform := board } (fun t => !t.nmiArmed) = true ∧
    after [0x10#8, 0xCE#8, 0x80#8, 0x00#8] { blank with platform := board } (fun t => t.nmiArmed) = true := by
  decide +kernel
/-- The kinds of the cycles of the next step that have BA low and BS high. -/
def acknowledged (st : State) : List CycleKind :=
  (st.busCycles.filter fun c : BusCycle => c.baBs == some (false, true)).map BusCycle.kind

/-- R445, R473: both cycles of the vector fetch of IRQ, SWI and RESET are Acknowledge cycles. -/
theorem test_vector_acknowledge :
    (acknowledged { base with inputs := [irqLow], cc := CC.ofByte 0x00#8 } == [.vectorHigh, .vectorLow] &&
      acknowledged { blank with mem := [(0x1000, 0x3F#8)] } == [.vectorHigh, .vectorLow] &&
      acknowledged { base with run := .inReset } == [.vectorHigh, .vectorLow]) = true := by decide +kernel
/-- R513: the sequences have the counted lengths. -/
theorem test_entry_lengths :
    (blank.entrySequence .irq).length = entryCycles .irq ∧ (blank.entrySequence .firq).length = entryCycles .firq := by
  decide +kernel
/-- R472, R460: LIC is high when halted at the end of an instruction, and not in a halt that RESET began. -/
theorem test_lic_halt :
    lines haltLow base (fun t => t.lic == some true) = true ∧
    lines haltLow { base with run := .inReset } (fun t =>
      t.lic == some false && t.busStatus == some (true, true)) = true := by decide +kernel
/-- R470 to R472 on the seven cycles of DEC extended (95_test_vectors.md 2.2) and on the NOP after it: LIC in the last
cycle and not in the opcode fetch, AVMA low before the two VMA cycles and high before the accesses, BUSY in the read and
the modify cycle. -/
theorem test_pins_dec :
    let pins := { blank with
      mem := [(0x1000, 0x7A#8), (0x1001, 0xA0#8), (0x1003, 0x12#8), (0xA000, 0x80#8)] }.runPins 2
    pins.map Pins.lic = [some false, none, none, none, none, none, some true, some false, some true] ∧
    pins.map Pins.avma =
      [some true, some true, some false, some true, some false, some true, some true, some true, none] ∧
    pins.map Pins.busy = [none, none, none, none, some true, some true, none, none, none] := by decide +kernel
/-- R470, R471, R440 on an FIRQ entry (R513): AVMA is high before the stacking and the vector fetch and low before the
VMA cycles, BUSY is low in the pushes and high in the first byte of the vector fetch. -/
theorem test_pins_firq :
    let pins := { base with inputs := [firqLow], cc := CC.ofByte 0x00#8 }.runPins 1
    pins.map Pins.avma =
      [some true, some true, some true, some true, some false, some true, some true, some false, none] ∧
    pins.map Pins.busy =
      [none, none, some false, some false, some false, none, some true, none, none] := by decide +kernel
/-- R470: BUSY in the first byte of the indirect address and of the operand of LDD [,X], and not in PSHS A,B. -/
theorem test_busy :
    ({ blank with mem := [(0x1000, 0xEC#8), (0x1001, 0x94#8)] }.busCycles.filter fun c : BusCycle =>
      c.busy == some true).map BusCycle.kind = [.pointerHigh, .dataHigh] ∧
    { blank with mem := [(0x1000, 0x34#8), (0x1001, 0x06#8)] }.busCycles.all (fun c => c.busy == some false) = true := by
  decide +kernel
/-- R411, R472, R473, R471: after Sync a dead cycle, then Figure 17's cycle: the opcode fetch, in which LIC goes low,
announced by AVMA, where the line is masked; LIC remains high where the interrupt is accepted. -/
theorem test_after_sync :
    let masked := { base with run := .sync, inputs := [irqLow], cc := CC.ofByte 0x50#8 }
    let open1 := { base with run := .sync, inputs := [firqLow], cc := CC.ofByte 0x10#8 }
    ((masked.runCycles 2).take 3).map BusCycle.kind = [.gap, .dead, .opcodeFetch] ∧
    ((masked.runPins 2).take 3).map Pins.lic = [some true, some true, some false] ∧
    ((masked.runPins 2).take 2).map Pins.avma = [none, some true] ∧
    ((open1.runPins 1).take 5).map Pins.lic = List.replicate 5 (some true) := by decide +kernel
/-- R472, R403: the last cycle of CWAI, with LIC high, comes after the vector fetch. -/
theorem test_lic_cwai :
    ({ base with run := .cwaiWait, inputs := [irqLow], cc := CC.ofByte 0xC0#8 }.runPins 1).map Pins.lic =
      [none, none, none, none, some true] := by decide +kernel
/-- The events of a history. -/
def eventsAre (o : Host.Outcome (List BusEvent) Fault Refusal) (es : List BusEvent) : Bool :=
  match o with
  | .next l => l == es
  | .fault _ | .refused _ => false

/-- R490 and Figure 7: reads of $FFFE while RESET is low, their bytes ignored, also out of a halt; after the release the
vector's two bytes and one VMA cycle at $FFFF. -/
theorem test_history_reset :
    let st := { blank with run := .halted, mem := [(0xFFFE, 0xC0#8)], inputs := [resetLow, resetLow] }
    eventsAre (st.history true 3) [.ignoredRead 0xFFFE#16, .ignoredRead 0xFFFE#16, .read 0xFFFE#16 0xC0#8,
      .read 0xFFFF#16 0x00#8, .ignoredRead 0xFFFF#16] = true ∧
    eventsAre (st.history false 2) [] = true ∧
    (st.runCycles 1).map BusCycle.kind = [.dead, .inReset] := by decide +kernel
/-- R82 on DEC extended (95_test_vectors.md 2.2): the events of the fetch, then the read and the write; with
`model_dummy_reads` the two VMA cycles of the chart too. -/
theorem test_history_dec :
    let st := { blank with mem := [(0x1000, 0x7A#8), (0x1001, 0xA0#8), (0xA000, 0x80#8)] }
    eventsAre (st.history false 1) [.read 0x1000#16 0x7A#8, .read 0x1001#16 0xA0#8, .read 0x1002#16 0x00#8,
      .read 0xA000#16 0x80#8, .write 0xA000#16 0x7F#8] = true ∧
    eventsAre (st.history true 1) [.read 0x1000#16 0x7A#8, .read 0x1001#16 0xA0#8, .read 0x1002#16 0x00#8,
      .ignoredRead 0xFFFF#16, .read 0xA000#16 0x80#8, .ignoredRead 0xFFFF#16, .write 0xA000#16 0x7F#8] = true := by
  decide +kernel
/-- R82 and R80: BSR pushes the low byte of its return address first; a write to a device is an event too. -/
theorem test_history_bsr :
    let st := { blank with mem := [(0x1000, 0x8D#8), (0x1001, 0x10#8)], s := 0xFF02#16, platform := board }
    eventsAre (st.history false 1) [.read 0x1000#16 0x8D#8, .read 0x1001#16 0x10#8, .write 0xFF01#16 0x02#8,
      .write 0xFF00#16 0x10#8] = true := by decide +kernel
/-- R82, D11: with `model_dummy_reads` the history is refused where a VMA cycle meets a device. -/
theorem test_history_refused :
    let device : Platform := { board with regions := [{ base := 0xFFFF#16, size := 1, kind := .device }] }
    (match ({ blank with mem := [(0x1000, 0x7A#8)], platform := device } : State).history true 1 with
     | .refused .ignoredReadOfDevice => true
     | _ => false) = true := by decide +kernel

/-! ### A state and operands that meet the hypotheses of each statement that has some -/

/-- DecimalAddition. -/
theorem witness_decimal_digits :
    let st : State := { blank with a := 0x45#8 }
    let v : Byte := 0x99#8
    st.a.toNat % 16 ≤ 9 ∧ st.a.toNat / 16 ≤ 9 ∧ v.toNat % 16 ≤ 9 ∧ v.toNat / 16 ≤ 9 := by decide
/-- PushThenPull, both stacks: the state right after the push. -/
theorem witness_push_then_pull :
    (∃ t : State, exec (.pshs 0xFF#8) base = .next t ∧ AllRam base t.s 12 ∧
      ∃ h : State, h.s = t.s ∧ h.mem = t.mem ∧ h.platform = t.platform) ∧
    (∃ t : State, exec (.pshu 0xFF#8) base = .next t ∧ AllRam base t.u 12 ∧
      ∃ h : State, h.u = t.u ∧ h.mem = t.mem ∧ h.platform = t.platform) :=
  ⟨⟨_, rfl, fun _ _ => rfl, _, rfl, rfl, rfl⟩, ⟨_, rfl, fun _ _ => rfl, _, rfl, rfl, rfl⟩⟩
/-- TransferRegisters and ExchangeRegisters: a pair of one size, a pair of two sizes, and a register apart. -/
theorem witness_register_pairs :
    RegCode.x.is16 = RegCode.pc.is16 ∧ RegCode.a.is16 ≠ RegCode.x.is16 ∧ overlap .y .x = false ∧
    overlap .y .pc = false := by decide
/-- IndirectionAndAdjustment: a pointer register other than the one adjusted. -/
theorem witness_other_pointer : PtrReg.y ≠ PtrReg.x := by decide
/-- CallThenReturn: an instruction of each kind, and the state right after the call. -/
theorem witness_call_then_return :
    (∃ i : Instr, ((∃ off, i = .bsr off) ∨ (∃ off, i = .lbsr off) ∨ (∃ lo, i = .jsrDir lo) ∨ (∃ a, i = .jsrExt a)) ∧
      ∃ t : State, exec i base = .next t ∧ AllRam base t.s 2 ∧
        ∃ h : State, h.s = t.s ∧ h.mem = t.mem ∧ h.platform = t.platform) ∧
    (∃ t : State, exec (.jsrIdx (.inc2 .s false)) base = .next t ∧ AllRam base t.s 2 ∧
      ∃ h : State, h.s = t.s ∧ h.mem = t.mem ∧ h.platform = t.platform) :=
  ⟨⟨.bsr 0x10#8, .inl ⟨_, rfl⟩, _, rfl, fun _ _ => rfl, _, rfl, rfl, rfl⟩,
    ⟨_, rfl, fun _ _ => rfl, _, rfl, rfl, rfl⟩⟩
/-- ReturnFromInterrupt: a frame with E set, and one with E clear. -/
theorem witness_frames :
    ({ blank with mem := [(0x0000, 0x80#8)] }.read8 blank.s).getLsbD 7 = true ∧
    (blank.read8 blank.s).getLsbD 7 = false := by decide +kernel
/-- EntryThenReturn: the state right after the entry, of an entire and of a subset stacking. -/
theorem witness_entry_then_return :
    (AllRam base (base.takeException .irq).s 12 ∧ ∃ h : State, h.s = (base.takeException .irq).s ∧
      h.mem = (base.takeException .irq).mem ∧ h.platform = base.platform) ∧
    (AllRam base (base.takeException .firq).s 3 ∧ ∃ h : State, h.s = (base.takeException .firq).s ∧
      h.mem = (base.takeException .firq).mem ∧ h.platform = base.platform) :=
  ⟨⟨fun _ _ => rfl, base.takeException .irq, rfl, rfl, rfl⟩, ⟨fun _ _ => rfl, base.takeException .firq, rfl, rfl, rfl⟩⟩
/-- ResetHeld, in the Running state and in a wait state. -/
theorem witness_reset_held :
    { base with inputs := [resetLow] }.sample.reset = true ∧
    { base with run := .sync, inputs := [resetLow] }.sample.reset = true := ⟨rfl, rfl⟩
/-- ResetReleased, with HALT high and with HALT low. -/
theorem witness_reset_released :
    ({ base with run := .inReset }.run = .inReset ∧ { base with run := .inReset }.sample.reset = false) ∧
    ({ base with run := .inReset, inputs := [haltLow] }.sample.reset = false ∧
      { base with run := .inReset, inputs := [haltLow] }.sample.halt = true) := ⟨⟨rfl, rfl⟩, rfl, rfl⟩
/-- HaltAtBoundary, with NMI armed and no edge. -/
theorem witness_halt :
    let st : State := { base with inputs := [haltLow] }
    AtBoundary st ∧ st.sample.reset = false ∧ st.sample.halt = true ∧ st.nmiArmed = true ∧
      st.sample.nmiEdge = false := ⟨.inl rfl, rfl, rfl, rfl, rfl⟩
/-- NmiAtBoundary, with the request latched before and with an edge now. -/
theorem witness_nmi_at_boundary :
    (let st : State := { base with nmiPending := true }
     AtBoundary st ∧ Free st.sample ∧ NmiRequested st st.sample) ∧
    (let st : State := { base with run := .halted, inputs := [nmiFalls] }
     AtBoundary st ∧ Free st.sample ∧ NmiRequested st st.sample) :=
  ⟨⟨.inl rfl, ⟨rfl, rfl⟩, rfl, .inl rfl⟩, ⟨.inr rfl, ⟨rfl, rfl⟩, rfl, .inr rfl⟩⟩
/-- FirqAtBoundary. -/
theorem witness_firq_at_boundary :
    let st : State := { base with inputs := [firqLow] }
    AtBoundary st ∧ Free st.sample ∧ ¬NmiRequested st st.sample ∧ FirqRequested st st.sample :=
  ⟨.inl rfl, ⟨rfl, rfl⟩, by simp [NmiRequested, base, blank, State.reset, State.sample, firqLow, Sample.quiet],
    rfl, rfl⟩
/-- IrqAtBoundary, with FIRQ low but masked. -/
theorem witness_irq_at_boundary :
    let st : State := { base with cc := CC.ofByte 0x40#8, inputs := [{ irqLow with firq := true }] }
    AtBoundary st ∧ Free st.sample ∧ ¬NmiRequested st st.sample ∧ ¬FirqRequested st st.sample ∧
      IrqRequested st st.sample :=
  ⟨.inl rfl, ⟨rfl, rfl⟩,
    by simp [NmiRequested, base, blank, State.reset, State.sample, irqLow, Sample.quiet],
    by simp [FirqRequested, CC.ofByte], rfl, rfl⟩

/-- No interrupt is requested on quiet lines with nothing latched. -/
theorem quiet_requests (st : State) (p : Sample) (h : st.nmiPending = false)
    (hp : p.nmiEdge = false ∧ p.firq = false ∧ p.irq = false) :
    ¬NmiRequested st p ∧ ¬FirqRequested st p ∧ ¬IrqRequested st p := by
  simp [NmiRequested, FirqRequested, IrqRequested, h, hp]

/-- SyncWakes: its premises, and each of its five clauses. -/
theorem witness_sync :
    let st (p : Sample) (cc : Byte) : State := { base with run := .sync, cc := CC.ofByte cc, inputs := [p] }
    ((st nmiFalls 0x50#8).run = .sync ∧ Free (st nmiFalls 0x50#8).sample ∧
      (st nmiFalls 0x50#8).sample.firqBrief = false ∧ (st nmiFalls 0x50#8).sample.irqBrief = false) ∧
    NmiRequested (st nmiFalls 0x50#8) nmiFalls ∧
    (¬NmiRequested (st firqLow 0x00#8) firqLow ∧ FirqRequested (st firqLow 0x00#8) firqLow) ∧
    (¬NmiRequested (st irqLow 0x40#8) irqLow ∧ ¬FirqRequested (st irqLow 0x40#8) irqLow ∧
      IrqRequested (st irqLow 0x40#8) irqLow) ∧
    (¬NmiRequested (st irqLow 0x50#8) irqLow ∧ ¬FirqRequested (st irqLow 0x50#8) irqLow ∧
      ¬IrqRequested (st irqLow 0x50#8) irqLow ∧ irqLow.irq = true) ∧
    ((st Sample.quiet 0x50#8).nmiPending = false ∧ (st Sample.quiet 0x50#8).sample = Sample.quiet) := by
  simp [NmiRequested, FirqRequested, IrqRequested, Free, State.sample, base, blank, State.reset, CC.ofByte, nmiFalls,
    firqLow, irqLow, Sample.quiet]
/-- SyncWakes: the clause on a pulse that may be too short, with F clear and with F set. -/
theorem witness_sync_brief :
    let p : Sample := { firqLow with firqBrief := true }
    let st (cc : Byte) : State := { base with run := .sync, cc := CC.ofByte cc, inputs := [p] }
    (st 0x00#8).run = .sync ∧ Free (st 0x00#8).sample ∧ (st 0x00#8).sample.firqBrief = true ∧
    ¬NmiRequested (st 0x00#8) p ∧ p.firq = true ∧ FirqRequested (st 0x00#8) p ∧ ¬FirqRequested (st 0x40#8) p := by
  simp [NmiRequested, FirqRequested, Free, State.sample, base, blank, State.reset, CC.ofByte, firqLow, Sample.quiet]
/-- CwaiWakes: its premises, and each of its four clauses. -/
theorem witness_cwai :
    let st (p : Sample) (cc : Byte) : State := { base with run := .cwaiWait, cc := CC.ofByte cc, inputs := [p] }
    ((st nmiFalls 0xD0#8).run = .cwaiWait ∧ Free (st nmiFalls 0xD0#8).sample) ∧
    NmiRequested (st nmiFalls 0xD0#8) nmiFalls ∧
    (¬NmiRequested (st firqLow 0x90#8) firqLow ∧ FirqRequested (st firqLow 0x90#8) firqLow) ∧
    (¬NmiRequested (st irqLow 0xC0#8) irqLow ∧ ¬FirqRequested (st irqLow 0xC0#8) irqLow ∧
      IrqRequested (st irqLow 0xC0#8) irqLow) ∧
    (¬NmiRequested (st irqLow 0xD0#8) irqLow ∧ ¬FirqRequested (st irqLow 0xD0#8) irqLow ∧
      ¬IrqRequested (st irqLow 0xD0#8) irqLow) := by
  simp [NmiRequested, FirqRequested, IrqRequested, Free, State.sample, base, blank, State.reset, CC.ofByte, nmiFalls,
    firqLow, irqLow, Sample.quiet]
/-- DecodeEncode and EveryInstructionCompletes: the two instructions whose well-formedness is a condition. -/
theorem witness_wf : Instr.wf (.tfr .u .s) = true ∧ Instr.wf (.exg .cc .a) = true := by decide
/-- DecodeReadsWellFormed. -/
theorem witness_decodes : decode [0x10#8, 0x11#8, 0x3F#8, 0x55#8] = .ok (.swi2, [0x55#8]) := by decide
/-- RepeatedPrebytes. -/
theorem witness_prebytes :
    ((0x11#8 : Byte) = 0x10#8 ∨ (0x11#8 : Byte) = 0x11#8) ∧
    (∀ p ∈ ([0x10#8, 0x11#8] : List Byte), p = 0x10#8 ∨ p = 0x11#8) ∧ (0x83#8 : Byte) ≠ 0x10#8 ∧
    (0x83#8 : Byte) ≠ 0x11#8 := by decide
/-- UndefinedPostbytes: a refused value at each end of its cases, and two that are not refused. -/
theorem witness_postbytes :
    decodeIdx [0x87#8, 0x00#8, 0x00#8] = .error .undefinedPostbyte ∧
    decodeIdx [0xFF#8, 0x00#8, 0x00#8] = .error .undefinedPostbyte ∧
    decodeIdx [0x90#8, 0x00#8, 0x00#8] = .error .undefinedPostbyte ∧
    decodeIdx [0x9F#8, 0x12#8, 0x34#8] = .ok (.extInd 0x1234#16, []) ∧
    decodeIdx [0x7F#8, 0x12#8, 0x34#8] = .ok (.off5 .s 0x1F#5, [0x12#8, 0x34#8]) := by decide
/-- StepRunsDecodedInstruction: the NOP at $1234 of `base`, on quiet lines. -/
theorem witness_step_decoded :
    AtBoundary base ∧ Free base.sample ∧
    (¬NmiRequested base base.sample ∧ ¬FirqRequested base base.sample ∧ ¬IrqRequested base base.sample) ∧
    ∃ rest : List Byte, decode (interrupted base (latchAfter base base.sample)).fetchBytes = .ok (.nop, rest) :=
  ⟨.inl rfl, ⟨rfl, rfl⟩, quiet_requests _ _ rfl ⟨rfl, rfl, rfl⟩, _, rfl⟩
/-- StepRunsEncodedInstruction: LDY immediate, its last byte at $0000. -/
theorem witness_step_encoded :
    let st : State := { base with pc := 0xFFFD#16, mem := [(0, 0x34#8), (0xFFFD, 0x10#8), (0xFFFE, 0x8E#8), (0xFFFF, 0x12#8)] }
    Instr.wf (.ldyImm 0x1234#16) = true ∧ LiesAt st st.pc (encode (.ldyImm 0x1234#16)) ∧ AtBoundary st ∧
    Free st.sample ∧
    (¬NmiRequested st st.sample ∧ ¬FirqRequested st st.sample ∧ ¬IrqRequested st st.sample) := by
  refine ⟨rfl, ?_, .inl rfl, ⟨rfl, rfl⟩, quiet_requests _ _ rfl ⟨rfl, rfl, rfl⟩⟩
  intro k hk
  have h4 : k < 4 := hk
  match k, h4 with
  | 0, _ => exact ⟨by decide, rfl⟩
  | 1, _ => exact ⟨by decide, rfl⟩
  | 2, _ => exact ⟨by decide, rfl⟩
  | 3, _ => exact ⟨by decide, rfl⟩
/-- InstructionsWriteOnlyTheirBytes, MaskAndHalfCarryFrame and ControlRegisterFrame: an instruction that completes
and is in none of the classes that write. -/
theorem witness_frame :
    (∃ t : State, exec (.staDir 0x20#8) base = .next t) ∧ writesMasks (.staDir 0x20#8) = false ∧
    writesH (.staDir 0x20#8) = false ∧ writesDP (.staDir 0x20#8) = false ∧ writesPC (.staDir 0x20#8) = false ∧
    (∀ imm, Instr.staDir 0x20#8 ≠ .cwai imm) ∧ Instr.staDir 0x20#8 ≠ .sync :=
  ⟨⟨_, rfl⟩, rfl, rfl, rfl, rfl, nofun, nofun⟩
/-- OnlyResetDisarmsNmi: the release of RESET disarms an armed NMI. -/
theorem witness_reset_disarms :
    let st : State := { base with run := .inReset }
    ∃ t : State, step st = .next t ∧ st.nmiArmed = true ∧ t.nmiArmed = false := ⟨_, rfl, rfl, rfl⟩
/-- StepKeepsPlatform: a step on a platform with ROM, at an address of it. -/
theorem witness_platform :
    ∃ t : State, step { base with platform := board, inputs := [irqLow] } = .next t ∧
      { base with platform := board }.kindAt 0x2000#16 ≠ .ram := ⟨_, rfl, by decide⟩
/-- StepKeepsMemoryCanonical: a step from a state in canonical form, with a store. -/
theorem witness_canonical :
    ∃ t : State, base.wf = true ∧ step { base with inputs := [irqLow] } = .next t := ⟨_, rfl, rfl⟩

end Sys2Proof.Tests
end

section
/-! What the machine around the processor is, and that no instruction touches it (R5, R41, R62, D1). -/

namespace Sys2Proof.Machine

/-- What no instruction changes: the parameters of the platform, the count of steps, the samples of the input lines
still to come, the NMI latch, and whether RESET began the last halt. -/
structure Surroundings where
  platform : Platform
  busTime : Nat
  inputs : List Sample
  nmiPending : Bool
  resetHalt : Bool

/-- The surroundings of a state. -/
def State.surroundings (st : State) : Surroundings where
  platform := st.platform
  busTime := st.busTime
  inputs := st.inputs
  nmiPending := st.nmiPending
  resetHalt := st.resetHalt

/-- Equal surroundings, field by field. -/
theorem State.surroundings_eq_iff {s t : State} :
    t.surroundings = s.surroundings ↔
      t.platform = s.platform ∧ t.busTime = s.busTime ∧ t.inputs = s.inputs ∧ t.nmiPending = s.nmiPending ∧
        t.resetHalt = s.resetHalt := by
  simp only [State.surroundings, Surroundings.mk.injEq]

/-! ### Operands, branches, transfers -/

/-- Writing the flags keeps the surroundings. -/
theorem State.surroundings_setCC (st : State) (cc : CC) : { st with cc := cc }.surroundings = st.surroundings := rfl

@[simp] theorem State.surroundings_setPtr (st : State) (r : PtrReg) (v : Word) :
    (st.setPtr r v).surroundings = st.surroundings := by cases r <;> rfl

/-- Adjusting a pointer register is the most that an indexed operand does. -/
@[simp] theorem State.surroundings_afterIndex (st : State) (m : Idx) :
    (st.afterIndex m).surroundings = st.surroundings := by
  rcases st.afterIndex_cases m with h | ⟨r, v, h⟩ <;> simp [h]

/-- An operation that keeps the surroundings keeps them on an indexed operand. -/
theorem surroundings_atIdx {op : Word → State → State} {m : Idx} {st : State}
    (hop : ∀ ea s, (op ea s).surroundings = s.surroundings) :
    (atIdx op m st).surroundings = st.surroundings :=
  (hop _ _).trans (st.surroundings_afterIndex m)

theorem surroundings_branch (k : Cond) (target : Word) (st : State) :
    (branch k target st).surroundings = st.surroundings := by
  unfold branch
  split <;> rfl

theorem surroundings_writeCode {st t : State} {c : RegCode} {v : RegValue} (h : st.writeCode c v = some t) :
    t.surroundings = st.surroundings := by
  cases c <;> cases v <;> simp only [State.writeCode, Option.some.injEq, reduceCtorEq] at h <;> subst h <;> rfl

/-- A completed operation leaves the state that it computed. -/
theorem surroundings_next {s t : State} {e : Surroundings}
    (h : (Host.Outcome.next s : Host.Outcome State Fault Refusal) = .next t) (hs : s.surroundings = e) :
    t.surroundings = e := by
  injection h with h
  rw [← h, hs]

theorem surroundings_transfer {src dst : RegCode} {st t : State} (h : transfer src dst st = .next t) :
    t.surroundings = st.surroundings := by
  unfold transfer at h
  split at h
  · next hw => exact surroundings_next h (surroundings_writeCode hw)
  · cases h

theorem surroundings_exchange {src dst : RegCode} {st t : State} (h : exchange src dst st = .next t) :
    t.surroundings = st.surroundings := by
  unfold exchange at h
  split at h
  · next hfirst =>
    split at h
    · next hsecond =>
      exact surroundings_next h ((surroundings_writeCode hsecond).trans (surroundings_writeCode hfirst))
    · cases h
  · cases h

/-! ### Stores and single-operand instructions -/

@[simp] theorem State.surroundings_write8 (st : State) (ea : Word) (v : Byte) :
    (st.write8 ea v).surroundings = st.surroundings := rfl

@[simp] theorem State.surroundings_write16 (st : State) (ea v : Word) :
    (st.write16 ea v).surroundings = st.surroundings := by
  rw [State.write16, State.surroundings_write8, State.surroundings_write8]

theorem surroundings_st8 (r : Acc) (ea : Word) (st : State) : (st8 r ea st).surroundings = st.surroundings := by
  rw [st8, State.surroundings_setCC, State.surroundings_write8]

theorem surroundings_st16 (r : Reg16) (ea : Word) (st : State) : (st16 r ea st).surroundings = st.surroundings := by
  rw [st16, State.surroundings_setCC, State.surroundings_write16]

/-- A read-modify-write instruction keeps the surroundings if its flags do. -/
theorem surroundings_modifyMem {op : Unary} (hflags : ∀ v s, (op.flags v s).surroundings = s.surroundings)
    (ea : Word) (st : State) : (modifyMem op ea st).surroundings = st.surroundings := by
  rw [modifyMem, hflags, State.surroundings_write8]

@[simp] theorem State.surroundings_setAcc (st : State) (r : Acc) (v : Byte) :
    (st.setAcc r v).surroundings = st.surroundings := by cases r <;> rfl

theorem surroundings_modifyAcc {op : Unary} (hflags : ∀ v s, (op.flags v s).surroundings = s.surroundings)
    (r : Acc) (st : State) : (modifyAcc op r st).surroundings = st.surroundings := by
  rw [modifyAcc, hflags, State.surroundings_setAcc]

/-! ### 16-bit arithmetic -/

theorem surroundings_cmp16 (r : Reg16) (m : Word) (st : State) : (cmp16 r m st).surroundings = st.surroundings := by
  rw [cmp16, State.surroundings_setCC]

theorem surroundings_subFromD (m : Word) (st : State) : (subFromD m st).surroundings = st.surroundings := by
  have hd (v : Word) : (st.setD v).surroundings = st.surroundings := rfl
  rw [subFromD, State.surroundings_setCC, hd]

/-! ### The stacks -/

@[simp] theorem State.surroundings_push8 (st : State) (k : Stack) (v : Byte) :
    (st.push8 k v).surroundings = st.surroundings := by cases k <;> rfl

@[simp] theorem State.surroundings_push16 (st : State) (k : Stack) (v : Word) :
    (st.push16 k v).surroundings = st.surroundings := by
  rw [State.push16, State.surroundings_push8, State.surroundings_push8]

/-- A call pushes the return address and writes PC. -/
theorem surroundings_call (target : Word) (st : State) : (call target st).surroundings = st.surroundings := by
  have hpc (s : State) : ({ s with pc := target } : State).surroundings = s.surroundings := rfl
  rw [call, hpc, State.surroundings_push16]

/-- A push of registers is a row of pushes of bytes. -/
@[simp] theorem State.surroundings_pushRegs (st : State) (k : Stack) (pb : Byte) :
    (st.pushRegs k pb).surroundings = st.surroundings := by
  rw [Laws.pushRegs_eq]
  generalize st.pushedBytes k pb = vs
  induction vs generalizing st with
  | nil => rfl
  | cons v vs ih => rw [List.foldl_cons, ih, State.surroundings_push8]

/-- A pull moves the stack pointer and writes registers. -/
@[simp] theorem State.surroundings_pullRegs (st : State) (k : Stack) (pb : Byte) :
    (st.pullRegs k pb).surroundings = st.surroundings := by
  rw [State.surroundings_eq_iff]
  simp [State.pullRegs, apply_ite State.platform, apply_ite State.busTime, apply_ite State.inputs,
    apply_ite State.nmiPending, apply_ite State.resetHalt]

@[simp] theorem State.surroundings_stackEntire (st : State) : st.stackEntire.surroundings = st.surroundings :=
  State.surroundings_pushRegs _ _ _

@[simp] theorem State.surroundings_stackSubset (st : State) : st.stackSubset.surroundings = st.surroundings :=
  State.surroundings_pushRegs _ _ _

/-- Taking an exception stacks registers, writes masks and reads the vector. -/
@[simp] theorem State.surroundings_takeException (st : State) (ev : Event) :
    (st.takeException ev).surroundings = st.surroundings := by
  have hhandler (s : State) : (s.enterHandler ev).surroundings = s.surroundings := rfl
  cases hev : ev.entire <;> simp [State.takeException, hev, hhandler]

/-- CWAI writes CC, stacks the whole state and waits. -/
theorem surroundings_andCCAndWait (imm : Byte) (st : State) :
    (andCCAndWait imm st).surroundings = st.surroundings := by
  have hwait (s : State) : ({ s with run := .cwaiWait } : State).surroundings = s.surroundings := rfl
  have hcc : (andCC imm st).surroundings = st.surroundings := rfl
  rw [andCCAndWait, hwait, State.surroundings_stackEntire, hcc]

/-! ### Every instruction -/

/-- No instruction touches the surroundings. -/
theorem surroundings_exec {i : Instr} {st t : State} (h : exec i st = .next t) :
    t.surroundings = st.surroundings := by
  cases i
  case tfr => exact surroundings_transfer h
  case exg => exact surroundings_exchange h
  case pshs | pshu => exact surroundings_next h (State.surroundings_pushRegs _ _ _)
  case puls | pulu => exact surroundings_next h (State.surroundings_pullRegs _ _ _)
  case swi | swi2 | swi3 => exact surroundings_next h (State.surroundings_takeException _ _)
  case rti => exact surroundings_next h (by simp [State.returnFromInterrupt])
  case cwai => exact surroundings_next h (surroundings_andCCAndWait _ _)
  case bra | brn | bhi | bls | bcc | bcs | bne | beq | bvc | bvs | bpl | bmi | bge | blt | bgt | ble | lbra | lbrn |
    lbhi | lbls | lbcc | lbcs | lbne | lbeq | lbvc | lbvs | lbpl | lbmi | lbge | lblt | lbgt | lble =>
    exact surroundings_next h (surroundings_branch _ _ _)
  case negDir | comDir | lsrDir | rorDir | asrDir | aslDir | rolDir | decDir | incDir | clrDir | negExt | comExt |
    lsrExt | rorExt | asrExt | aslExt | rolExt | decExt | incExt | clrExt =>
    exact surroundings_next h (surroundings_modifyMem (fun _ _ => rfl) _ _)
  case negIdx | comIdx | lsrIdx | rorIdx | asrIdx | aslIdx | rolIdx | decIdx | incIdx | clrIdx =>
    exact surroundings_next h (surroundings_atIdx (surroundings_modifyMem fun _ _ => rfl))
  case nega | coma | lsra | rora | asra | asla | rola | deca | inca | clra | negb | comb | lsrb | rorb | asrb | aslb |
    rolb | decb | incb | clrb =>
    exact surroundings_next h (surroundings_modifyAcc (fun _ _ => rfl) _ _)
  case staDir | stbDir | staExt | stbExt => exact surroundings_next h (surroundings_st8 _ _ _)
  case staIdx | stbIdx => exact surroundings_next h (surroundings_atIdx (surroundings_st8 _))
  case stdDir | stxDir | styDir | stuDir | stsDir | stdExt | stxExt | styExt | stuExt | stsExt =>
    exact surroundings_next h (surroundings_st16 _ _ _)
  case stdIdx | stxIdx | styIdx | stuIdx | stsIdx =>
    exact surroundings_next h (surroundings_atIdx (surroundings_st16 _))
  case bsr | lbsr | jsrDir | jsrExt => exact surroundings_next h (surroundings_call _ _)
  case jsrIdx => exact surroundings_next h (surroundings_atIdx surroundings_call)
  case cmpdImm | cmpxImm | cmpyImm | cmpuImm | cmpsImm | cmpdDir | cmpxDir | cmpyDir | cmpuDir | cmpsDir | cmpdExt |
    cmpxExt | cmpyExt | cmpuExt | cmpsExt =>
    exact surroundings_next h (surroundings_cmp16 _ _ _)
  case cmpdIdx | cmpxIdx | cmpyIdx | cmpuIdx | cmpsIdx =>
    exact surroundings_next h (surroundings_atIdx fun _ _ => surroundings_cmp16 _ _ _)
  case subdImm | subdDir | subdExt => exact surroundings_next h (surroundings_subFromD _ _)
  case subdIdx => exact surroundings_next h (surroundings_atIdx fun _ _ => surroundings_subFromD _ _)
  case tstIdx | jmpIdx | leax | leay | leas | leau | subaIdx | cmpaIdx | sbcaIdx | andaIdx | bitaIdx | ldaIdx |
    eoraIdx | adcaIdx | oraIdx | addaIdx | subbIdx | cmpbIdx | sbcbIdx | andbIdx | bitbIdx | ldbIdx | eorbIdx |
    adcbIdx | orbIdx | addbIdx | adddIdx | lddIdx |
    ldxIdx | ldyIdx | lduIdx | ldsIdx =>
    exact surroundings_next h (surroundings_atIdx fun _ _ => rfl)
  -- Every other instruction writes named registers and flags.
  all_goals exact surroundings_next h rfl

end Sys2Proof.Machine
end

section
/-! The step as a whole: an instruction boundary with nothing to take runs one instruction (R16, R447), and no step
changes the platform. -/

namespace Sys2Proof.Proofs

open Sys2Proof.Machine Sys2Proof.Claims

/-! ### The platform and the time at the input lines -/

/-- The same platform at the same time. -/
def SameBus (s t : State) : Prop := t.platform = s.platform ∧ t.busTime = s.busTime

theorem SameBus.of_surroundings {s t : State} (h : t.surroundings = s.surroundings) : SameBus s t := by
  obtain ⟨hplatform, htime, -, -, -⟩ := State.surroundings_eq_iff.mp h
  exact ⟨hplatform, htime⟩

/-- Taking an interrupt clears its latch, then takes the exception. -/
theorem sameBus_enterInterrupt (s : State) (ev : Event) : SameBus s (s.enterInterrupt ev) :=
  SameBus.of_surroundings (s := s.acknowledge ev) (State.surroundings_takeException _ ev)

theorem sameBus_atBoundary {s t : State} {p : Sample} (h : s.atBoundary p = .done t) : SameBus s t := by
  unfold State.atBoundary at h
  split at h
  · cases h
    exact ⟨rfl, rfl⟩
  · split at h
    · cases h
      exact ⟨rfl, rfl⟩
    · split at h
      · cases h
        exact sameBus_enterInterrupt { s.latchNmi p with run := .running, resetHalt := false } _
      · cases h

theorem sameBus_leaveSync (s : State) (p : Sample) : SameBus s (s.leaveSync p) := by
  unfold State.leaveSync
  split
  · exact sameBus_enterInterrupt
      { s with
        run := .running
        resetHalt := false
        draws := s.draws + p.firqBrief.toNat + p.irqBrief.toNat } _
  · exact ⟨rfl, rfl⟩

theorem sameBus_inSync {s t : State} {p : Sample} (h : s.inSync p = .done t) : SameBus s t := by
  unfold State.inSync at h
  split at h
  · cases h
    exact ⟨rfl, rfl⟩
  · split at h
    · cases h
    · split at h
      · cases h
        exact sameBus_leaveSync (s.latchNmi p) p
      · cases h
        exact ⟨rfl, rfl⟩

theorem sameBus_inCwai {s t : State} {p : Sample} (h : s.inCwai p = .done t) : SameBus s t := by
  unfold State.inCwai at h
  split at h
  · cases h
    exact ⟨rfl, rfl⟩
  · split at h
    · cases h
    · split at h <;> cases h <;> exact ⟨rfl, rfl⟩

theorem sameBus_inResetState {s t : State} {p : Sample} (h : s.inResetState p = .done t) : SameBus s t := by
  unfold State.inResetState at h
  split at h <;> cases h <;> exact ⟨rfl, rfl⟩

/-- A step that ends at the input lines leaves the bus as it was when the step began. -/
theorem sameBus_control {st t : State} (h : st.control = .done t) : SameBus st.beginStep t := by
  unfold State.control at h
  split at h
  · exact sameBus_atBoundary h
  · exact sameBus_atBoundary h
  · exact sameBus_inSync h
  · exact sameBus_inCwai h
  · exact sameBus_inResetState h

/-- A step keeps the platform and takes one unit of time. -/
theorem sameBus_step {st t : State} (h : step st = .next t) : SameBus st.beginStep t := by
  rcases step_cases h with hdone | ⟨s1, i, s2, hexecute, hfetch, hexec⟩
  · exact sameBus_control hdone
  · obtain ⟨-, rfl⟩ := control_execute hexecute
    obtain ⟨rest, -, rfl⟩ := fetchInstr_cases hfetch
    obtain ⟨hplatform, htime, -, -, -⟩ := State.surroundings_eq_iff.mp (surroundings_exec hexec)
    exact ⟨hplatform, htime⟩

/-! ### Memory where no RAM answers -/

/-- The write events of a history leave every byte that is not RAM (R62). -/
theorem read_replay_of_not_ram {p : Platform} {q : Word} (hq : p.kindAt q ≠ .ram) (m : Memory) (es : List BusEvent) :
    Memory.read (Laws.replay p m es) q = Memory.read m q := by
  induction es generalizing m with
  | nil => rfl
  | cons e es ih =>
    cases e with
    | write a v =>
      have hstore : Memory.read (m.store p a v) q = Memory.read m q := by
        rw [Memory.read_store, if_neg]
        rintro ⟨rfl, hram⟩
        exact hq hram
      exact (ih _).trans hstore
    | read a v => exact ih m
    | ignoredRead a => exact ih m

/-- Settles O59: the memory after a step is what its write events leave (`Laws.replay_step`), and those reach RAM
alone. -/
theorem stepKeepsPlatform : Obligations.StepKeepsPlatform := by
  intro st t h
  obtain ⟨hplatform, htime⟩ := sameBus_step h
  refine ⟨hplatform, htime, fun q hq => ?_⟩
  rw [Laws.replay_step h]
  exact read_replay_of_not_ram hq _ _

/-! ### A boundary with nothing to take -/

/-- No request at a boundary: the NMI latch after the sample, FIRQ and IRQ ask for nothing that is not masked
(R434). -/
theorem request_eq_none {st : State} {p : Sample} (hnmi : ¬NmiRequested st p) (hfirq : ¬FirqRequested st p)
    (hirq : ¬IrqRequested st p) : (st.latchNmi p).request p = none := by
  have hn : ((st.latchNmi p).nmiPending && st.nmiArmed) = false := by
    cases harmed : st.nmiArmed <;> simp_all [NmiRequested]
  have hf : (p.firq && !st.cc.f) = false := by simpa [FirqRequested] using hfirq
  have hi : (p.irq && !st.cc.i) = false := by simpa [IrqRequested] using hirq
  simp only [State.request, State.latchNmi_nmiArmed, State.latchNmi_cc, hn, hf, hi, Bool.false_eq_true, if_false]

/-- With nothing to take, an instruction is fetched in the state whose sample is used up (R447 step 6). -/
theorem control_eq_execute {st : State} (hrun : AtBoundary st) (hfree : Free st.sample)
    (hnmi : ¬NmiRequested st st.sample) (hfirq : ¬FirqRequested st st.sample) (hirq : ¬IrqRequested st st.sample) :
    st.control = .execute (interrupted st (latchAfter st st.sample)) := by
  have hnone : (st.beginStep.latchNmi st.sample).request st.sample = none := request_eq_none hnmi hfirq hirq
  have hboundary : st.control = st.beginStep.atBoundary st.sample := by
    rcases hrun with hrun | hrun <;> simp only [State.control, hrun]
  simp only [hboundary, State.atBoundary, hfree.1, hfree.2, Bool.false_eq_true, if_false, hnone]
  rfl

/-- Settles O51: the boundary has nothing to take, and the fetch finds the instruction decoded. -/
theorem stepRunsDecodedInstruction : Obligations.StepRunsDecodedInstruction := by
  intro st i rest hrun hfree hnmi hfirq hirq hdecode
  simp only [step, control_eq_execute hrun hfree hnmi hfirq hirq, State.fetchInstr, hdecode]
  rfl

end Sys2Proof.Proofs
end

section
/-! Decoding undoes encoding (R90 to R127). Every encoding is the prebytes of a page, an opcode, and up to three operand
bytes, which the row of that opcode reads back. -/

namespace Sys2Proof

open Sys2Proof.Machine

/-! ### Operands -/

@[simp] theorem ptrOfBits_bits (r : PtrReg) : ptrOfBits r.bits = r := by cases r <;> rfl

/-- The fields of the postbyte `1RRimmmm` (R100). -/
theorem postbyte_fields (rr : BitVec 2) (ind : Bool) (mode : BitVec 4) :
    (postbyte rr ind mode).getLsbD 7 = true ∧ (postbyte rr ind mode).extractLsb' 5 2 = rr ∧
      (postbyte rr ind mode)[4] = ind ∧ (postbyte rr ind mode).extractLsb' 0 4 = mode := by
  revert rr ind mode
  decide

/-- The fields of the postbyte `0RRnnnnn` (R101). -/
theorem off5Postbyte_fields (rr : BitVec 2) (n : BitVec 5) :
    (0#1 ++ rr ++ n : BitVec 8).getLsbD 7 = false ∧ (0#1 ++ rr ++ n : BitVec 8).extractLsb' 5 2 = rr ∧
      (0#1 ++ rr ++ n : BitVec 8).extractLsb' 0 5 = n := by
  revert rr n
  decide

/-- The bytes of an indexed operand are read back as that operand, whatever bytes follow. -/
theorem decodeIdx_encodeIdx (m : Idx) (rest : List Byte) : decodeIdx (encodeIdx m ++ rest) = .ok (m, rest) := by
  have hmode (rr : BitVec 2) (ind : Bool) (mode : BitVec 4) (tail : List Byte) :
      decodeIdx (postbyte rr ind mode :: tail) = decodeIdxMode (postbyte rr ind mode) tail := by
    rw [decodeIdx, if_pos (postbyte_fields rr ind mode).1]
  cases m
  case off5 r n =>
    obtain ⟨hbit, hreg, hoff⟩ := off5Postbyte_fields r.bits n
    simp only [encodeIdx, List.cons_append, List.nil_append, decodeIdx, hbit, hreg, hoff, Bool.false_eq_true, if_false,
      ptrOfBits_bits]
  case extInd n => simp [encodeIdx, wordBytes, decodeIdx, decodeIdxMode]
  all_goals simp [encodeIdx, wordBytes, hmode, decodeIdxMode, postbyte_fields]

theorem length_encodeIdx_le (m : Idx) : (encodeIdx m).length ≤ 3 := by
  cases m <;> simp [encodeIdx, wordBytes]

/-- The code of a register names it (R119). -/
@[simp] theorem regOfCode_code (c : RegCode) : regOfCode c.code = some c := by cases c <;> rfl

/-- The postbyte of a valid pair is read back as the pair (R119, R120). -/
theorem decodePair_pairByte {src dst : RegCode} (h : validPair src dst = true) :
    decodePair (pairByte src dst) = .ok (src, dst) := by
  have hsrc : (pairByte src dst).extractLsb' 4 4 = src.code := by cases src <;> cases dst <;> rfl
  have hdst : (pairByte src dst).extractLsb' 0 4 = dst.code := by cases src <;> cases dst <;> rfl
  simp [decodePair, hsrc, hdst, h]

/-! ### The opcode maps -/

theorem mem_of_findRow {l : List (Byte × Row)} {op : Byte} {row : Row} (h : findRow l op = some row) :
    (op, row) ∈ l := by
  induction l with
  | nil => cases h
  | cons c l ih =>
    obtain ⟨key, r⟩ := c
    simp only [findRow] at h
    split at h
    · next heq =>
      cases h
      exact heq ▸ List.mem_cons_self
    · exact List.mem_cons_of_mem _ (ih h)

/-- Where no opcode is listed twice, every listed row is the one found. -/
theorem findRow_of_mem {l : List (Byte × Row)} (hl : (l.map Prod.fst).Nodup) {op : Byte} {row : Row}
    (h : (op, row) ∈ l) : findRow l op = some row := by
  induction l with
  | nil => cases h
  | cons c l ih =>
    obtain ⟨key, r⟩ := c
    rw [List.map_cons, List.nodup_cons] at hl
    rcases List.mem_cons.mp h with heq | htail
    · cases heq
      simp [findRow]
    · have hmem : op ∈ l.map Prod.fst := List.mem_map_of_mem htail
      have hne : key ≠ op := fun heq => hl.1 (heq ▸ hmem)
      rw [findRow, if_neg hne, ih hl.2 htail]

/-- No map lists an opcode twice: its opcodes rise (R122 to R124). -/
theorem Page.nodup_rows (p : Page) : (p.rows.map Prod.fst).Nodup := by
  have hrise : ((p.rows.map Prod.fst).map BitVec.toNat).IsChain (· < ·) := by cases p <;> decide +kernel
  exact (List.pairwise_map.mp hrise.pairwise).imp fun hlt heq => hlt.ne (congrArg BitVec.toNat heq)

/-- The line of a map that holds the opcodes of one upper half. -/
def Page.line : Page → Nat → List (Byte × Row)
  | .page1, 0x0 => page1Row0
  | .page1, 0x1 => page1Row1
  | .page1, 0x2 => page1Row2
  | .page1, 0x3 => page1Row3
  | .page1, 0x4 => page1Row4
  | .page1, 0x5 => page1Row5
  | .page1, 0x6 => page1Row6
  | .page1, 0x7 => page1Row7
  | .page1, 0x8 => page1Row8
  | .page1, 0x9 => page1Row9
  | .page1, 0xA => page1RowA
  | .page1, 0xB => page1RowB
  | .page1, 0xC => page1RowC
  | .page1, 0xD => page1RowD
  | .page1, 0xE => page1RowE
  | .page1, 0xF => page1RowF
  | .page2, 0x2 => page2Row2
  | .page2, 0x3 => page2Row3
  | .page2, 0x8 => page2Row8
  | .page2, 0x9 => page2Row9
  | .page2, 0xA => page2RowA
  | .page2, 0xB => page2RowB
  | .page2, 0xC => page2RowC
  | .page2, 0xD => page2RowD
  | .page2, 0xE => page2RowE
  | .page2, 0xF => page2RowF
  | .page3, 0x3 => page3Row3
  | .page3, 0x8 => page3Row8
  | .page3, 0x9 => page3Row9
  | .page3, 0xA => page3RowA
  | .page3, 0xB => page3RowB
  | _, _ => []

theorem Page.line_subset_rows (p : Page) (n : Nat) : p.line n ⊆ p.rows := by
  intro c hc
  unfold Page.line at hc
  split at hc <;> simp only [Page.rows, page1Rows, page2Rows, page3Rows, List.mem_append, hc, or_true, true_or]
  cases hc

/-- An opcode is looked up in its line of the map. -/
theorem lookup_of_line {p : Page} {op : Byte} {row : Row} (h : findRow (p.line (op.toNat / 16)) op = some row) :
    lookup p op = some row :=
  findRow_of_mem p.nodup_rows (p.line_subset_rows _ (mem_of_findRow h))

/-! ### Rows -/

theorem decodeRow_imm16 (mk : Word → Instr) (v : Word) (rest : List Byte) :
    decodeRow (.imm16 mk) (wordBytes v ++ rest) = .ok (mk v, rest) := by simp [decodeRow, wordBytes]

theorem decodeRow_ext (mk : Word → Instr) (v : Word) (rest : List Byte) :
    decodeRow (.ext mk) (wordBytes v ++ rest) = .ok (mk v, rest) := by simp [decodeRow, wordBytes]

theorem decodeRow_rel16 (mk : Word → Instr) (v : Word) (rest : List Byte) :
    decodeRow (.rel16 mk) (wordBytes v ++ rest) = .ok (mk v, rest) := by simp [decodeRow, wordBytes]

theorem decodeRow_idx (mk : Idx → Instr) (m : Idx) (rest : List Byte) :
    decodeRow (.idx mk) (encodeIdx m ++ rest) = .ok (mk m, rest) := by simp [decodeRow, decodeIdx_encodeIdx]

theorem decodeRow_regpb (mk : RegCode → RegCode → Instr) {src dst : RegCode} (h : validPair src dst = true)
    (rest : List Byte) : decodeRow (.regpb mk) ([pairByte src dst] ++ rest) = .ok (mk src dst, rest) := by
  simp [decodeRow, decodePair_pairByte h]

/-! ### The parts of an encoding -/

/-- The prebytes that select a page (R91). -/
def Page.prebytes : Page → List Byte
  | .page1 => []
  | .page2 => [0x10#8]
  | .page3 => [0x11#8]

theorem Page.isPrebyte_of_mem {p : Page} {b : Byte} (h : b ∈ p.prebytes) : isPrebyte b = true := by
  cases p <;> simp_all [Page.prebytes, isPrebyte]

theorem Page.length_prebytes_le (p : Page) : p.prebytes.length ≤ 1 := by cases p <;> decide

/-- After the prebytes of a page, an opcode is looked up in the map of that page (R91). -/
theorem decode_prebytes (p : Page) {op : Byte} (hop : isPrebyte op = false) (rest : List Byte) :
    decode (p.prebytes ++ op :: rest) = decodeOpcode p op rest := by
  cases p with
  | page1 =>
    have hne : op ≠ 0x10#8 ∧ op ≠ 0x11#8 := by simpa [isPrebyte] using hop
    simp [Page.prebytes, decode, hne]
  | page2 | page3 => simp [Page.prebytes, decode, decodeAfterPrebyte, hop]

/-- The bytes of `i` are the prebytes of `p`, an opcode of `row`, and at most three operand bytes (R90), which `row`
reads back whatever bytes follow. -/
structure EncodedAs (i : Instr) (p : Page) (op : Byte) (row : Row) (operands : List Byte) : Prop where
  bytes : encode i = p.prebytes ++ op :: operands
  opcode : isPrebyte op = false
  found : lookup p op = some row
  short : operands.length ≤ 3
  reads : ∀ rest, decodeRow row (operands ++ rest) = .ok (i, rest)

/-- Every well-formed instruction is encoded so: its row of the opcode maps is the one of its opcode (R122 to R124). -/
theorem exists_encodedAs {i : Instr} (h : i.wf = true) :
    ∃ (p : Page) (op : Byte) (row : Row) (operands : List Byte), EncodedAs i p op row operands := by
  cases i
  case negDir | comDir | lsrDir | rorDir | asrDir | aslDir | rolDir | decDir | incDir | tstDir | jmpDir | clrDir |
    nop | sync | daa | orcc | andcc | sex | bra | brn | bhi | bls | bcc | bcs | bne | beq | bvc | bvs | bpl | bmi |
    bge | blt | bgt | ble | pshs | puls | pshu | pulu | rts | abx | rti | cwai | mul | swi | nega | coma | lsra |
    rora | asra | asla | rola | deca | inca | tsta | clra | negb | comb | lsrb | rorb | asrb | aslb | rolb | decb |
    incb | tstb | clrb | subaImm | cmpaImm | sbcaImm | andaImm | bitaImm | ldaImm | eoraImm | adcaImm | oraImm |
    addaImm | bsr | subaDir | cmpaDir | sbcaDir | subdDir | andaDir | bitaDir | ldaDir | staDir | eoraDir | adcaDir |
    oraDir | addaDir | cmpxDir | jsrDir | ldxDir | stxDir | subbImm | cmpbImm | sbcbImm | andbImm | bitbImm | ldbImm |
    eorbImm | adcbImm | orbImm | addbImm | subbDir | cmpbDir | sbcbDir | adddDir | andbDir | bitbDir | ldbDir |
    stbDir | eorbDir | adcbDir | orbDir | addbDir | lddDir | stdDir | lduDir | stuDir =>
    exact ⟨.page1, _, _, _, rfl, rfl, lookup_of_line rfl, by simp, fun _ => rfl⟩
  case lbra | lbsr =>
    exact ⟨.page1, _, _, _, rfl, rfl, lookup_of_line rfl, by simp [wordBytes], decodeRow_rel16 _ _⟩
  case exg | tfr =>
    exact ⟨.page1, _, _, _, rfl, rfl, lookup_of_line rfl, by simp, decodeRow_regpb _ h⟩
  case leax | leay | leas | leau | negIdx | comIdx | lsrIdx | rorIdx | asrIdx | aslIdx | rolIdx | decIdx | incIdx |
    tstIdx | jmpIdx | clrIdx | subaIdx | cmpaIdx | sbcaIdx | subdIdx | andaIdx | bitaIdx | ldaIdx | staIdx | eoraIdx |
    adcaIdx | oraIdx | addaIdx | cmpxIdx | jsrIdx | ldxIdx | stxIdx | subbIdx | cmpbIdx | sbcbIdx | adddIdx |
    andbIdx | bitbIdx | ldbIdx | stbIdx | eorbIdx | adcbIdx | orbIdx | addbIdx | lddIdx | stdIdx | lduIdx | stuIdx =>
    exact ⟨.page1, _, _, _, rfl, rfl, lookup_of_line rfl, length_encodeIdx_le _, decodeRow_idx _ _⟩
  case negExt | comExt | lsrExt | rorExt | asrExt | aslExt | rolExt | decExt | incExt | tstExt | jmpExt | clrExt |
    subaExt | cmpaExt | sbcaExt | subdExt | andaExt | bitaExt | ldaExt | staExt | eoraExt | adcaExt | oraExt |
    addaExt | cmpxExt | jsrExt | ldxExt | stxExt | subbExt | cmpbExt | sbcbExt | adddExt | andbExt | bitbExt |
    ldbExt | stbExt | eorbExt | adcbExt | orbExt | addbExt | lddExt | stdExt | lduExt | stuExt =>
    exact ⟨.page1, _, _, _, rfl, rfl, lookup_of_line rfl, by simp [wordBytes], decodeRow_ext _ _⟩
  case subdImm | cmpxImm | ldxImm | adddImm | lddImm | lduImm =>
    exact ⟨.page1, _, _, _, rfl, rfl, lookup_of_line rfl, by simp [wordBytes], decodeRow_imm16 _ _⟩
  case lbrn | lbhi | lbls | lbcc | lbcs | lbne | lbeq | lbvc | lbvs | lbpl | lbmi | lbge | lblt | lbgt | lble =>
    exact ⟨.page2, _, _, _, rfl, rfl, lookup_of_line rfl, by simp [wordBytes], decodeRow_rel16 _ _⟩
  case swi2 | cmpdDir | cmpyDir | ldyDir | styDir | ldsDir | stsDir =>
    exact ⟨.page2, _, _, _, rfl, rfl, lookup_of_line rfl, by simp, fun _ => rfl⟩
  case cmpdImm | cmpyImm | ldyImm | ldsImm =>
    exact ⟨.page2, _, _, _, rfl, rfl, lookup_of_line rfl, by simp [wordBytes], decodeRow_imm16 _ _⟩
  case cmpdIdx | cmpyIdx | ldyIdx | styIdx | ldsIdx | stsIdx =>
    exact ⟨.page2, _, _, _, rfl, rfl, lookup_of_line rfl, length_encodeIdx_le _, decodeRow_idx _ _⟩
  case cmpdExt | cmpyExt | ldyExt | styExt | ldsExt | stsExt =>
    exact ⟨.page2, _, _, _, rfl, rfl, lookup_of_line rfl, by simp [wordBytes], decodeRow_ext _ _⟩
  case swi3 | cmpuDir | cmpsDir =>
    exact ⟨.page3, _, _, _, rfl, rfl, lookup_of_line rfl, by simp, fun _ => rfl⟩
  case cmpuImm | cmpsImm =>
    exact ⟨.page3, _, _, _, rfl, rfl, lookup_of_line rfl, by simp [wordBytes], decodeRow_imm16 _ _⟩
  case cmpuIdx | cmpsIdx =>
    exact ⟨.page3, _, _, _, rfl, rfl, lookup_of_line rfl, length_encodeIdx_le _, decodeRow_idx _ _⟩
  case cmpuExt | cmpsExt =>
    exact ⟨.page3, _, _, _, rfl, rfl, lookup_of_line rfl, by simp [wordBytes], decodeRow_ext _ _⟩

/-- Decoding an encoding gives the instruction back and leaves the bytes that follow (R127). -/
theorem decode_encode {i : Instr} (h : i.wf = true) (rest : List Byte) : decode (encode i ++ rest) = .ok (i, rest) := by
  obtain ⟨p, op, row, operands, he⟩ := exists_encodedAs h
  rw [he.bytes, List.append_assoc, List.cons_append, decode_prebytes p he.opcode, decodeOpcode, he.found]
  exact he.reads rest

end Sys2Proof
end

section
/-! The fetch reads the encoding that lies at PC (R15, R90 to R92), so a step runs the instruction encoded there. -/

namespace Sys2Proof.Proofs

open Sys2Proof.Machine Sys2Proof.Claims

/-! ### Bytes that lie in memory -/

theorem liesAt_cons {st : State} {a : Word} {b : Byte} {bytes : List Byte} :
    LiesAt st a (b :: bytes) ↔ st.kindAt a ≠ .device ∧ st.read8 a = b ∧ LiesAt st (a + 1#16) bytes := by
  have hnext (k : Nat) : a + BitVec.ofNat 16 (k + 1) = a + 1#16 + BitVec.ofNat 16 k := by
    rw [Nat.add_comm, BitVec.ofNat_add, BitVec.add_assoc]
  constructor
  · intro h
    obtain ⟨hkind, hread⟩ := h 0 (by simp)
    refine ⟨by simpa using hkind, by simpa using hread, fun k hk => ?_⟩
    have hk' := h (k + 1) (by simpa using hk)
    rwa [hnext, List.getElem_cons_succ] at hk'
  · rintro ⟨hkind, hread, htail⟩ k hk
    cases k with
    | zero => simpa using ⟨hkind, hread⟩
    | succ k =>
      rw [hnext, List.getElem_cons_succ]
      exact htail k (by simpa using hk)

/-- Where memory answers, the fetch reads the byte that a read of data gives. -/
theorem busRead_fetch_of_liesAt {st : State} {a : Word} {b : Byte} {bytes : List Byte}
    (h : LiesAt st a (b :: bytes)) : st.busRead .fetch a = b := by
  obtain ⟨hkind, hread, -⟩ := liesAt_cons.mp h
  rw [← hread, State.read8, State.busRead_memory _ _ hkind, State.busRead_memory _ _ hkind]

/-- The state that a boundary fetches in has the memory and the platform of the state before. -/
theorem liesAt_interrupted {st : State} {a : Word} {bytes : List Byte} (pending : Bool) (h : LiesAt st a bytes) :
    LiesAt (interrupted st pending) a bytes := by
  intro k hk
  obtain ⟨hkind, hread⟩ := h k hk
  have hkind' : (interrupted st pending).kindAt (a + BitVec.ofNat 16 k) ≠ .device := hkind
  rw [State.read8, State.busRead_memory _ _ hkind] at hread
  rw [State.read8, State.busRead_memory _ _ hkind']
  exact ⟨hkind', hread⟩

/-! ### The window of a fetch -/

/-- A run of fetched bytes begins with those that lie there. -/
theorem bytesFrom_of_liesAt {st : State} {bytes : List Byte} {a : Word} (h : LiesAt st a bytes) {n : Nat}
    (hn : bytes.length ≤ n) : ∃ rest, st.bytesFrom n a = bytes ++ rest := by
  induction bytes generalizing a n with
  | nil => exact ⟨_, rfl⟩
  | cons b bytes ih =>
    obtain ⟨n, rfl⟩ := Nat.exists_eq_succ_of_ne_zero (Nat.ne_zero_of_lt hn)
    obtain ⟨-, -, htail⟩ := liesAt_cons.mp h
    obtain ⟨rest, hrest⟩ := ih htail (Nat.le_of_succ_le_succ hn)
    refine ⟨rest, ?_⟩
    rw [State.bytesFrom, busRead_fetch_of_liesAt h, hrest]
    rfl

/-- The window holds the prebytes, the opcode and its operands, up to three bytes, that lie where it begins. -/
theorem fetchWindow_of_liesAt {st : State} {pre operands : List Byte} {op : Byte}
    (hpre : ∀ b ∈ pre, isPrebyte b = true) (hop : isPrebyte op = false) (hoperands : operands.length ≤ 3)
    {fuel : Nat} (hfuel : pre.length < fuel) {a : Word} (h : LiesAt st a (pre ++ op :: operands)) :
    ∃ rest, st.fetchWindow fuel a = pre ++ op :: operands ++ rest := by
  induction pre generalizing a fuel with
  | nil =>
    obtain ⟨fuel, rfl⟩ := Nat.exists_eq_succ_of_ne_zero (Nat.ne_zero_of_lt hfuel)
    obtain ⟨rest, hrest⟩ := bytesFrom_of_liesAt h (n := 4) (Nat.succ_le_succ hoperands)
    have hread : st.busRead .fetch a = op := busRead_fetch_of_liesAt h
    refine ⟨rest, ?_⟩
    rw [State.fetchWindow, hread, hop, if_neg Bool.false_ne_true, hrest]
  | cons b pre ih =>
    obtain ⟨fuel, rfl⟩ := Nat.exists_eq_succ_of_ne_zero (Nat.ne_zero_of_lt hfuel)
    have hread : st.busRead .fetch a = b := busRead_fetch_of_liesAt h
    obtain ⟨-, -, htail⟩ := liesAt_cons.mp h
    obtain ⟨rest, hrest⟩ := ih (fun c hc => hpre c (List.mem_cons_of_mem _ hc)) (by simpa using hfuel) htail
    refine ⟨rest, ?_⟩
    rw [State.fetchWindow, hread, if_pos (hpre b List.mem_cons_self), hrest]
    rfl

/-- The fetch reads a well-formed instruction's encoding where it lies at PC. -/
theorem fetchBytes_of_liesAt {st : State} {i : Instr} (hwf : i.wf = true) (h : LiesAt st st.pc (encode i)) :
    ∃ rest, st.fetchBytes = encode i ++ rest := by
  obtain ⟨p, op, row, operands, he⟩ := exists_encodedAs hwf
  rw [he.bytes] at h ⊢
  have hfuel : p.prebytes.length < 65536 := p.length_prebytes_le.trans_lt (by decide)
  exact fetchWindow_of_liesAt (fun _ => Page.isPrebyte_of_mem) he.opcode he.short hfuel h

/-- Settles O52: the fetch reads the encoding and some bytes more, and decoding undoes encoding. -/
theorem stepRunsEncodedInstruction : Obligations.StepRunsEncodedInstruction := by
  intro st i hwf hlies hrun hfree hnmi hfirq hirq
  obtain ⟨rest, hfetch⟩ := fetchBytes_of_liesAt hwf (liesAt_interrupted (latchAfter st st.sample) hlies)
  have hdecode : decode (interrupted st (latchAfter st st.sample)).fetchBytes = .ok (i, rest) := by
    rw [hfetch, decode_encode hwf]
  have hlength : (encode i ++ rest).length - rest.length = (encode i).length := by simp
  rw [stepRunsDecodedInstruction st i rest hrun hfree hnmi hfirq hirq hdecode, hfetch, hlength]

end Sys2Proof.Proofs
end

section
/-! The control registers of R25, R27, R33 to R36, R39 and R42 as one record, and which of them each operation of the
model can change. Every instruction's frame over them follows from the frames of the operations that it runs. -/

namespace Sys2Proof.Machine

open Sys2Proof.Claims

-- Elaborated one after another: each waiting theorem takes a thread of its own, and the check bounds their stacks.
set_option Elab.async false

/-- E, F, I and H of the condition codes, DP, PC, the run state and the NMI arming latch. -/
structure Controls where
  e : Bool
  f : Bool
  i : Bool
  h : Bool
  dp : Byte
  pc : Word
  run : RunState
  nmiArmed : Bool

/-- The control registers of a state. -/
def State.controls (st : State) : Controls where
  e := st.cc.e
  f := st.cc.f
  i := st.cc.i
  h := st.cc.h
  dp := st.dp
  pc := st.pc
  run := st.run
  nmiArmed := st.nmiArmed

/-- Which control registers an operation can change: E, F and I together, H, DP, PC, the run state. Of the NMI latch it
says whether the operation does arm it. -/
structure Writes where
  masks : Bool := false
  h : Bool := false
  dp : Bool := false
  pc : Bool := false
  run : Bool := false
  arms : Bool := false

/-- The control registers of `new` where they are written, those of `old` elsewhere. -/
def Writes.merge (w : Writes) (old new : Controls) : Controls where
  e := bif w.masks then new.e else old.e
  f := bif w.masks then new.f else old.f
  i := bif w.masks then new.i else old.i
  h := bif w.h then new.h else old.h
  dp := bif w.dp then new.dp else old.dp
  pc := bif w.pc then new.pc else old.pc
  run := bif w.run then new.run else old.run
  nmiArmed := bif w.arms then true else old.nmiArmed

/-- What one operation or a later one can change. -/
def Writes.union (w v : Writes) : Writes where
  masks := w.masks || v.masks
  h := w.h || v.h
  dp := w.dp || v.dp
  pc := w.pc || v.pc
  run := w.run || v.run
  arms := w.arms || v.arms

/-- From `s` to `t` no control register changes that `w` does not name, and NMI is armed as `w` says. -/
def ChangesOnly (w : Writes) (s t : State) : Prop := t.controls = w.merge s.controls t.controls

/-- `ChangesOnly`, register by register. -/
theorem changesOnly_iff {w : Writes} {s t : State} :
    ChangesOnly w s t ↔
      (w.masks = false → t.cc.e = s.cc.e ∧ t.cc.f = s.cc.f ∧ t.cc.i = s.cc.i) ∧
      (w.h = false → t.cc.h = s.cc.h) ∧ (w.dp = false → t.dp = s.dp) ∧ (w.pc = false → t.pc = s.pc) ∧
      (w.run = false → t.run = s.run) ∧ t.nmiArmed = (s.nmiArmed || w.arms) := by
  obtain ⟨masks, h, dp, pc, run, arms⟩ := w
  have hkept {α : Type} (b : Bool) (new old : α) : (new = bif b then new else old) ↔ (b = false → new = old) := by
    cases b <;> simp
  have harmed : (bif arms then true else s.nmiArmed) = (s.nmiArmed || arms) := by cases arms <;> simp
  simp only [ChangesOnly, State.controls, Writes.merge, Controls.mk.injEq, hkept, harmed, imp_and, and_assoc]

/-! ### One operation after another -/

/-- Two operations in a row change what either can. -/
theorem ChangesOnly.trans {w v : Writes} {s t u : State} (hst : ChangesOnly w s t) (htu : ChangesOnly v t u) :
    ChangesOnly (w.union v) s u := by
  simp only [changesOnly_iff, Writes.union, Bool.or_eq_false_iff] at *
  obtain ⟨hmasks, hh, hdp, hpc, hrun, harmed⟩ := hst
  obtain ⟨hmasks', hh', hdp', hpc', hrun', harmed'⟩ := htu
  refine ⟨fun ⟨hw, hv⟩ => ?_, fun ⟨hw, hv⟩ => (hh' hv).trans (hh hw), fun ⟨hw, hv⟩ => (hdp' hv).trans (hdp hw),
    fun ⟨hw, hv⟩ => (hpc' hv).trans (hpc hw), fun ⟨hw, hv⟩ => (hrun' hv).trans (hrun hw), ?_⟩
  · obtain ⟨he, hf, hi⟩ := hmasks hw
    obtain ⟨he', hf', hi'⟩ := hmasks' hv
    exact ⟨he'.trans he, hf'.trans hf, hi'.trans hi⟩
  · rw [harmed', harmed, Bool.or_assoc]

/-- A statement may name more registers than change; what arms NMI it names exactly. -/
theorem ChangesOnly.mono {w v : Writes} {s t : State} (h : ChangesOnly w s t)
    (hmasks : v.masks = false → w.masks = false) (hh : v.h = false → w.h = false)
    (hdp : v.dp = false → w.dp = false) (hpc : v.pc = false → w.pc = false) (hrun : v.run = false → w.run = false)
    (harms : v.arms = w.arms) : ChangesOnly v s t := by
  obtain ⟨kmasks, kh, kdp, kpc, krun, karmed⟩ := changesOnly_iff.mp h
  exact changesOnly_iff.mpr ⟨kmasks ∘ hmasks, kh ∘ hh, kdp ∘ hdp, kpc ∘ hpc, krun ∘ hrun, harms ▸ karmed⟩

/-- A completed operation leaves the state that it computed. -/
theorem changesOnly_next {w : Writes} {st s t : State}
    (h : (Host.Outcome.next s : Host.Outcome State Fault Refusal) = .next t) (hs : ChangesOnly w st s) :
    ChangesOnly w st t := by
  injection h with h
  exact h ▸ hs

/-! ### Operands and branches -/

theorem State.controls_setPtr (st : State) (r : PtrReg) (v : Word) : (st.setPtr r v).controls = st.controls := by
  cases r <;> rfl

theorem changesOnly_afterIndex (st : State) (m : Idx) : ChangesOnly {} st (st.afterIndex m) := by
  rcases st.afterIndex_cases m with h | ⟨r, v, h⟩
  · rw [h]; rfl
  · rw [h]; exact st.controls_setPtr r v

/-- An operation changes on an indexed operand what it changes on any. -/
theorem changesOnly_atIdx {w : Writes} {op : Word → State → State} {m : Idx} {st : State}
    (hop : ∀ ea s, ChangesOnly w s (op ea s)) : ChangesOnly w st (atIdx op m st) :=
  (changesOnly_afterIndex st m).trans (hop _ _)

theorem changesOnly_branch (k : Cond) (target : Word) (st : State) :
    ChangesOnly { pc := true } st (branch k target st) := by
  unfold branch
  split <;> rfl

/-! ### Single-operand instructions -/

theorem changesOnly_setAcc (st : State) (r : Acc) (v : Byte) : ChangesOnly {} st (st.setAcc r v) := by cases r <;> rfl

/-- The accumulator form of a single-operand instruction changes what its flags do. -/
theorem changesOnly_modifyAcc {w : Writes} {op : Unary} (hflags : ∀ v s, ChangesOnly w s (op.flags v s)) (r : Acc)
    (st : State) : ChangesOnly w st (modifyAcc op r st) :=
  (changesOnly_setAcc st r _).trans (hflags _ _)

/-- So does the memory form. -/
theorem changesOnly_modifyMem {w : Writes} {op : Unary} (hflags : ∀ v s, ChangesOnly w s (op.flags v s)) (ea : Word)
    (st : State) : ChangesOnly w st (modifyMem op ea st) := by
  have hwrite (v : Byte) : ChangesOnly {} st (st.write8 ea v) := rfl
  exact (hwrite _).trans (hflags _ _)

/-! ### S as a destination, TFR and EXG -/

/-- S as a destination arms NMI under the wide set (D9). -/
theorem changesOnly_assignS (st : State) (v : Word) : ChangesOnly { arms := wide st } st (st.assignS v) := by
  have harmed : (st.assignS v).nmiArmed = (st.nmiArmed || wide st) := rfl
  exact changesOnly_iff.mpr ⟨fun _ => ⟨rfl, rfl, rfl⟩, fun _ => rfl, fun _ => rfl, fun _ => rfl, fun _ => rfl, harmed⟩

theorem wide_congr {s t : State} (h : t.platform = s.platform) : wide t = wide s := by rw [wide, wide, h]

theorem changesOnly_leas (m : Idx) (st : State) : ChangesOnly { arms := wide st } st (atIdx (leaNoFlags .s) m st) := by
  have hassign := changesOnly_assignS (st.afterIndex m) (st.indexedEA m)
  rw [wide_congr (st.afterIndex_platform m)] at hassign
  exact (changesOnly_afterIndex st m).trans hassign

/-- What a write of the register with that code changes (R37, R39, R119). -/
def codeWrites (c : RegCode) (st : State) : Writes where
  masks := c == .cc
  h := c == .cc
  dp := c == .dp
  pc := c == .pc
  arms := c == .s && wide st

theorem changesOnly_writeCode {st t : State} {c : RegCode} {v : RegValue} (h : st.writeCode c v = some t) :
    ChangesOnly (codeWrites c st) st t := by
  cases c <;> cases v <;> simp only [State.writeCode, Option.some.injEq, reduceCtorEq] at h <;> subst h
  case s.word => exact changesOnly_assignS _ _
  all_goals rfl

theorem changesOnly_transfer {src dst : RegCode} {st t : State} (h : transfer src dst st = .next t) :
    ChangesOnly (codeWrites dst st) st t := by
  unfold transfer at h
  split at h
  · next hw => exact changesOnly_next h (changesOnly_writeCode hw)
  · cases h

/-- EXG writes one register, then the other. -/
theorem changesOnly_exchange {src dst : RegCode} {st t : State} (h : exchange src dst st = .next t) :
    ChangesOnly ((codeWrites src st).union (codeWrites dst st)) st t := by
  unfold exchange at h
  split at h
  · next s1 hfirst =>
    split at h
    · next hsecond =>
      obtain ⟨hplatform, -⟩ := State.surroundings_eq_iff.mp (surroundings_writeCode hfirst)
      have hwrites : codeWrites dst s1 = codeWrites dst st := by rw [codeWrites, codeWrites, wide_congr hplatform]
      have hdst := hwrites ▸ changesOnly_writeCode hsecond
      exact changesOnly_next h ((changesOnly_writeCode hfirst).trans hdst)
    · cases h
  · cases h

/-! ### The stacks -/

theorem State.controls_push8 (st : State) (k : Stack) (v : Byte) : (st.push8 k v).controls = st.controls := by
  cases k <;> rfl

/-- A call pushes the return address and writes PC. -/
theorem changesOnly_call (target : Word) (st : State) : ChangesOnly { pc := true } st (call target st) := rfl

/-- A push of registers is a row of pushes of bytes. -/
theorem State.controls_pushRegs (st : State) (k : Stack) (pb : Byte) :
    (st.pushRegs k pb).controls = st.controls := by
  rw [Laws.pushRegs_eq]
  generalize st.pushedBytes k pb = vs
  induction vs generalizing st with
  | nil => rfl
  | cons v vs ih => rw [List.foldl_cons, ih, State.controls_push8]

theorem changesOnly_pushRegs (st : State) (k : Stack) (pb : Byte) : ChangesOnly {} st (st.pushRegs k pb) :=
  st.controls_pushRegs k pb

/-- Whether a pull on that stack arms NMI: PULU of S under the wide set (R324, D9). -/
def pullArms : Stack → State → Bool
  | .s, _ => false
  | .u, st => wide st

theorem pullArms_congr {s t : State} {k : Stack} (h : t.platform = s.platform) : pullArms k t = pullArms k s := by
  cases k
  · rfl
  · exact wide_congr h

theorem State.loadOtherSp_nmiArmed (st : State) (k : Stack) (v : Word) :
    (st.loadOtherSp k v).nmiArmed = (st.nmiArmed || pullArms k st) := by
  cases k
  · exact (Bool.or_false _).symm
  · rfl

/-- What a pull changes by its postbyte: CC by bit 0, DP by bit 3, S of PULU by bit 6, PC by bit 7 (R121). -/
def pullWrites (k : Stack) (pb : Byte) (st : State) : Writes where
  masks := pb.getLsbD 0
  h := pb.getLsbD 0
  dp := pb.getLsbD 3
  pc := pb.getLsbD 7
  arms := pb.getLsbD 6 && pullArms k st

/-- A pull writes CC, DP, S of PULU and PC, each only where its bit is set; no other register that it pulls is a control
register. -/
theorem changesOnly_pullRegs (k : Stack) (pb : Byte) (st : State) :
    ChangesOnly (pullWrites k pb st) st (st.pullRegs k pb) := by
  have hcc (hbit : pb.getLsbD 0 = false) : (st.pullRegs k pb).cc = st.cc := by
    simp only [State.pullRegs, hbit, Bool.false_eq_true, if_false, apply_ite State.cc, State.drop_cc,
      State.loadOtherSp_cc, ite_self]
  have hdp (hbit : pb.getLsbD 3 = false) : (st.pullRegs k pb).dp = st.dp := by
    simp only [State.pullRegs, hbit, Bool.false_eq_true, if_false, apply_ite State.dp, State.drop_dp,
      State.loadOtherSp_dp, ite_self]
  have hpc (hbit : pb.getLsbD 7 = false) : (st.pullRegs k pb).pc = st.pc := by
    simp only [State.pullRegs, hbit, Bool.false_eq_true, if_false, apply_ite State.pc, State.drop_pc,
      State.loadOtherSp_pc, ite_self]
  have hrun : (st.pullRegs k pb).run = st.run := by simp [State.pullRegs, apply_ite State.run]
  have harmed : (st.pullRegs k pb).nmiArmed = (st.nmiArmed || (pb.getLsbD 6 && pullArms k st)) := by
    cases hbit : pb.getLsbD 6 with
    | false =>
      simp only [State.pullRegs, hbit, Bool.false_eq_true, if_false, apply_ite State.nmiArmed, State.drop_nmiArmed,
        ite_self, Bool.false_and, Bool.or_false]
    | true =>
      simp only [State.pullRegs, hbit, if_true, apply_ite State.nmiArmed, State.drop_nmiArmed,
        State.loadOtherSp_nmiArmed, ite_self, Bool.true_and]
      rw [pullArms_congr]
      simp only [State.drop_platform, apply_ite State.platform, ite_self]
  exact changesOnly_iff.mpr
    ⟨fun h => by simp [hcc h], fun h => by rw [hcc h], hdp, hpc, fun _ => hrun, harmed⟩

/-- RTI pulls CC, and then PC with or without the other registers (R410). -/
theorem changesOnly_returnFromInterrupt (st : State) :
    ChangesOnly { masks := true, h := true, dp := true, pc := true } st st.returnFromInterrupt := by
  unfold State.returnFromInterrupt
  refine ((changesOnly_pullRegs .s _ st).trans (changesOnly_pullRegs .s _ _)).mono nofun nofun nofun nofun
    (fun _ => rfl) ?_
  simp [Writes.union, pullWrites, pullArms]

/-! ### Exceptions and waits -/

/-- The stacking of the entire state sets E. -/
theorem changesOnly_stackEntire (st : State) : ChangesOnly { masks := true } st st.stackEntire := by
  have hset : ChangesOnly { masks := true } st { st with cc := { st.cc with e := true } } := rfl
  exact hset.trans (changesOnly_pushRegs _ .s 0xFF#8)

/-- The subset stacking clears E. -/
theorem changesOnly_stackSubset (st : State) : ChangesOnly { masks := true } st st.stackSubset := by
  have hclear : ChangesOnly { masks := true } st { st with cc := { st.cc with e := false } } := rfl
  exact hclear.trans (changesOnly_pushRegs _ .s 0x81#8)

/-- Taking an exception writes E, F, I and PC (R431, R440 to R444). -/
theorem changesOnly_takeException (st : State) (ev : Event) :
    ChangesOnly { masks := true, pc := true } st (st.takeException ev) := by
  have hhandler (s : State) : ChangesOnly { masks := true, pc := true } s (s.enterHandler ev) := rfl
  unfold State.takeException
  split
  · exact (changesOnly_stackEntire st).trans (hhandler _)
  · exact (changesOnly_stackSubset st).trans (hhandler _)

/-- CWAI writes CC, stacks the entire state and waits (R403). -/
theorem changesOnly_andCCAndWait (imm : Byte) (st : State) :
    ChangesOnly { masks := true, h := true, run := true } st (andCCAndWait imm st) := by
  have hand : ChangesOnly { masks := true, h := true } st (andCC imm st) := rfl
  have hwait (s : State) : ChangesOnly { run := true } s { s with run := .cwaiWait } := rfl
  exact (hand.trans (changesOnly_stackEntire _)).trans (hwait _)

/-! ### Every instruction -/

/-- The instructions that end in a wait. -/
def waits : Instr → Bool
  | .cwai _ | .sync => true
  | _ => false

theorem waits_eq_false {i : Instr} (hcwai : ∀ imm, i ≠ .cwai imm) (hsync : i ≠ .sync) : waits i = false := by
  unfold waits
  split
  · exact absurd rfl (hcwai _)
  · exact absurd rfl hsync
  · rfl

/-- What an instruction can change, by the classes of the statements. -/
def instrWrites (i : Instr) (st : State) : Writes where
  masks := writesMasks i
  h := writesH i
  dp := writesDP i
  pc := writesPC i
  run := waits i
  arms := loadsS i || (assignsS i && wide st)

/-- No instruction changes a control register that its class does not name. -/
theorem changesOnly_exec {i : Instr} {st t : State} (h : exec i st = .next t) :
    ChangesOnly (instrWrites i st) st t := by
  cases i
  case tfr => exact changesOnly_transfer h
  case exg src dst =>
    exact (changesOnly_exchange h).mono id id id id id (Bool.and_or_distrib_right _ _ _)
  case pshs | pshu => exact changesOnly_next h (changesOnly_pushRegs _ _ _)
  case puls => exact (changesOnly_next h (changesOnly_pullRegs _ _ _)).mono id id id id id (Bool.and_false _).symm
  case pulu => exact changesOnly_next h (changesOnly_pullRegs _ _ _)
  case swi | swi2 | swi3 => exact changesOnly_next h (changesOnly_takeException _ _)
  case rti => exact changesOnly_next h (changesOnly_returnFromInterrupt _)
  case cwai => exact changesOnly_next h (changesOnly_andCCAndWait _ _)
  case leas => exact changesOnly_next h (changesOnly_leas _ _)
  case bra | bhi | bls | bcc | bcs | bne | beq | bvc | bvs | bpl | bmi | bge | blt | bgt | ble | lbra | lbhi | lbls |
    lbcc | lbcs | lbne | lbeq | lbvc | lbvs | lbpl | lbmi | lbge | lblt | lbgt | lble =>
    exact changesOnly_next h (changesOnly_branch _ _ _)
  case nega | coma | lsra | rora | asra | asla | rola | deca | inca | clra | negb | comb | lsrb | rorb | asrb | aslb |
    rolb | decb | incb | clrb =>
    exact changesOnly_next h (changesOnly_modifyAcc (fun _ _ => by rfl) _ _)
  case negDir | comDir | lsrDir | rorDir | asrDir | aslDir | rolDir | decDir | incDir | clrDir | negExt | comExt |
    lsrExt | rorExt | asrExt | aslExt | rolExt | decExt | incExt | clrExt =>
    exact changesOnly_next h (changesOnly_modifyMem (fun _ _ => by rfl) _ _)
  case negIdx | comIdx | lsrIdx | rorIdx | asrIdx | aslIdx | rolIdx | decIdx | incIdx | clrIdx =>
    exact changesOnly_next h (changesOnly_atIdx fun _ _ => changesOnly_modifyMem (fun _ _ => by rfl) _ _)
  case tstIdx | jmpIdx | jsrIdx | leax | leay | leau | subaIdx | cmpaIdx | sbcaIdx | andaIdx | bitaIdx | ldaIdx |
    staIdx | eoraIdx | adcaIdx | oraIdx | addaIdx | subbIdx | cmpbIdx | sbcbIdx | andbIdx | bitbIdx | ldbIdx | stbIdx |
    eorbIdx | adcbIdx | orbIdx | addbIdx | adddIdx | subdIdx | cmpdIdx | cmpxIdx | cmpyIdx | cmpuIdx | cmpsIdx |
    lddIdx | ldxIdx | ldyIdx | lduIdx | ldsIdx | stdIdx | stxIdx | styIdx | stuIdx | stsIdx =>
    exact changesOnly_next h (changesOnly_atIdx fun _ _ => rfl)
  -- Every other instruction writes named registers, flags and memory.
  all_goals exact changesOnly_next h rfl

end Sys2Proof.Machine
end

section
/-! The state of the processor (10_state.md): the bits of CC, the values after RESET, which instructions change which
control register, and what arms and disarms NMI. -/

namespace Sys2Proof.Proofs

open Sys2Proof.Machine Sys2Proof.Claims

-- Elaborated one after another: each waiting theorem takes a thread of its own, and the check bounds their stacks.
set_option Elab.async false

/-! ### The condition code byte and the state after reset -/

/-- Settles O32: the eight weighted bits are below 256. -/
theorem conditionCodeByte : Obligations.ConditionCodeByte := by
  intro cc
  refine ⟨?_, CC.ofByte_toByte cc⟩
  have he := Bool.toNat_le cc.e
  have hf := Bool.toNat_le cc.f
  have hh := Bool.toNat_le cc.h
  have hi := Bool.toNat_le cc.i
  have hn := Bool.toNat_le cc.n
  have hz := Bool.toNat_le cc.z
  have hv := Bool.toNat_le cc.v
  have hc := Bool.toNat_le cc.c
  rw [CC.toByte, BitVec.toNat_ofNat, Nat.mod_eq_of_lt]
  omega

/-- Settles O60: every field by its value; the vector reads as the empty memory does. -/
theorem resetState : Obligations.ResetState := by
  have hvector : State.reset.pc = State.reset.read16 resetVector := rfl
  exact ⟨Memory.wf_reset, rfl, rfl, rfl, rfl, rfl, rfl, rfl, hvector⟩

/-! ### RESET released -/

/-- The release of RESET is the RESET sequence (R490). -/
theorem step_inReset {st : State} (hrun : st.run = .inReset) (hreset : st.sample.reset = false) :
    step st = .next (st.beginStep.resetSequence st.sample.halt) := by
  have hcontrol : st.control = .done (st.beginStep.resetSequence st.sample.halt) := by
    simp only [State.control, hrun, State.inResetState, hreset, Bool.false_eq_true, if_false]
  rw [step, hcontrol]

/-- Settles O39: the fields of the RESET sequence; only the vector is read, high byte first. -/
theorem resetReleased : Obligations.ResetReleased := by
  intro st hrun hreset
  refine ⟨_, step_inReset hrun hreset, rfl, rfl, rfl, rfl, rfl, ?_, rfl, rfl, rfl, rfl, rfl, rfl⟩
  have hread (q : Word) : (st.beginStep.resetSequence st.sample.halt).read8 q = st.beginStep.read8 q :=
    State.read8_congr rfl rfl rfl q
  have hvector : (st.beginStep.resetSequence st.sample.halt).pc =
      wordOf (st.beginStep.read8 0xFFFE#16) (st.beginStep.read8 0xFFFF#16) := rfl
  rw [hvector, toNat_wordOf, hread, hread, Nat.mul_comm]

/-! ### The frames of the instructions -/

/-- Settles O55, by the frame of every instruction (`changesOnly_exec`). -/
theorem maskAndHalfCarryFrame : Obligations.MaskAndHalfCarryFrame := by
  intro i st t h
  obtain ⟨hmasks, hh, -, -, -, -⟩ := changesOnly_iff.mp (changesOnly_exec h)
  exact ⟨hmasks, hh⟩

/-- Settles O56, by the frames over the control registers (`changesOnly_exec`) and over the surroundings
(`surroundings_exec`). -/
theorem controlRegisterFrame : Obligations.ControlRegisterFrame := by
  intro i st t h
  obtain ⟨-, -, hdp, hpc, hrun, harmed⟩ := changesOnly_iff.mp (changesOnly_exec h)
  obtain ⟨hplatform, htime, hinputs, hpending, hhalt⟩ := State.surroundings_eq_iff.mp (surroundings_exec h)
  exact ⟨hdp, hpc, fun hcwai hsync => hrun (waits_eq_false hcwai hsync), harmed.trans (Bool.or_assoc _ _ _).symm,
    hpending, hinputs, hplatform, htime, hhalt⟩

/-! ### What disarms NMI -/

theorem nmiArmed_enterInterrupt (s : State) (ev : Event) : (s.enterInterrupt ev).nmiArmed = s.nmiArmed := by
  obtain ⟨-, -, -, -, -, harmed⟩ := changesOnly_iff.mp (changesOnly_takeException (s.acknowledge ev) ev)
  exact harmed.trans (Bool.or_false _)

theorem nmiArmed_atBoundary {s t : State} {p : Sample} (h : s.atBoundary p = .done t) : t.nmiArmed = s.nmiArmed := by
  unfold State.atBoundary at h
  split at h
  · cases h
    rfl
  · split at h
    · cases h
      rfl
    · split at h
      · cases h
        exact nmiArmed_enterInterrupt _ _
      · cases h

theorem nmiArmed_leaveSync (s : State) (p : Sample) : (s.leaveSync p).nmiArmed = s.nmiArmed := by
  unfold State.leaveSync
  split
  · exact nmiArmed_enterInterrupt _ _
  · rfl

theorem nmiArmed_inSync {s t : State} {p : Sample} (h : s.inSync p = .done t) : t.nmiArmed = s.nmiArmed := by
  unfold State.inSync at h
  split at h
  · cases h
    rfl
  · split at h
    · cases h
    · split at h
      · cases h
        exact nmiArmed_leaveSync _ _
      · cases h
        rfl

theorem nmiArmed_inCwai {s t : State} {p : Sample} (h : s.inCwai p = .done t) : t.nmiArmed = s.nmiArmed := by
  unfold State.inCwai at h
  split at h
  · cases h
    rfl
  · split at h
    · cases h
    · split at h <;> cases h <;> rfl

/-- While RESET is low the arming latch stays (R490). -/
theorem nmiArmed_inResetState {s t : State} {p : Sample} (h : s.inResetState p = .done t) (hreset : p.reset = true) :
    t.nmiArmed = s.nmiArmed := by
  rw [State.inResetState, if_pos hreset] at h
  cases h
  rfl

/-- A step that ends at the input lines keeps the arming latch, the release of RESET apart. -/
theorem nmiArmed_control {st t : State} (h : st.control = .done t) :
    t.nmiArmed = st.beginStep.nmiArmed ∨ (st.run = .inReset ∧ st.sample.reset = false) := by
  unfold State.control at h
  split at h
  · exact .inl (nmiArmed_atBoundary h)
  · exact .inl (nmiArmed_atBoundary h)
  · exact .inl (nmiArmed_inSync h)
  · exact .inl (nmiArmed_inCwai h)
  · next hrun =>
    cases hreset : st.sample.reset with
    | true => exact .inl (nmiArmed_inResetState h hreset)
    | false => exact .inr ⟨hrun, rfl⟩

/-- No instruction disarms NMI. -/
theorem nmiArmed_exec {i : Instr} {st t : State} (h : exec i st = .next t) (harmed : st.nmiArmed = true) :
    t.nmiArmed = true := by
  obtain ⟨-, -, -, hafter, -, -, -, -, -⟩ := controlRegisterFrame i st t h
  rw [hafter, harmed, Bool.true_or, Bool.true_or]

/-- Settles O57: the input lines keep the latch or release RESET, and an instruction keeps it armed. -/
theorem onlyResetDisarmsNmi : Obligations.OnlyResetDisarmsNmi := by
  intro st t h harmed hdisarmed
  rcases step_cases h with hdone | ⟨s1, i, s2, hexecute, hfetch, hexec⟩
  · exact (nmiArmed_control hdone).resolve_left (by simp [harmed, hdisarmed])
  · obtain ⟨-, rfl⟩ := control_execute hexecute
    obtain ⟨rest, -, rfl⟩ := fetchInstr_cases hfetch
    have hstill : t.nmiArmed = true := nmiArmed_exec hexec harmed
    simp [hdisarmed] at hstill

end Sys2Proof.Proofs
end

section
/-! Memory (20_memory.md): its canonical form is kept by every step. -/

namespace Sys2Proof.Proofs

open Sys2Proof.Machine

/-- The write events of a history keep the canonical form, each of them by `Memory.wf_store`. -/
theorem wf_replay {m : Memory} (hm : Memory.wf m = true) (p : Platform) (es : List BusEvent) :
    Memory.wf (Laws.replay p m es) = true := by
  induction es generalizing m with
  | nil => exact hm
  | cons e es ih =>
    cases e with
    | write a v => exact ih (Memory.wf_store m p a v hm)
    | read a v => exact ih hm
    | ignoredRead a => exact ih hm

/-- Settles O58: the memory after a step, whatever the step is, is what its write events leave (`Laws.replay_step`). -/
theorem stepKeepsMemoryCanonical : Obligations.StepKeepsMemoryCanonical := by
  intro st t hwf h
  rw [State.wf, Laws.replay_step h]
  exact wf_replay hwf _ _

end Sys2Proof.Proofs
end

section
/-! The decoder (30_encoding.md R90 to R127): it undoes the encoder, it reads a head of its bytes and nothing else, it
skips repeated prebytes, and it refuses exactly the undefined indexed postbytes. -/

namespace Sys2Proof.Proofs

open Sys2Proof.Machine

-- Elaborated one after another: each waiting theorem takes a thread of its own, and the check bounds their stacks.
set_option Elab.async false

/-- Settles O46, by the parts of an encoding (`exists_encodedAs`). -/
theorem decodeEncode : Obligations.DecodeEncode := fun _ rest hwf => decode_encode hwf rest

/-! ### Readers of a head of the bytes -/

/-- If the reader answers `x` and `rest` for `bytes`, then `x` has the property, and what was read is a head of `bytes`
that is read in the same way whatever bytes follow it. -/
def ReadsHead {α : Type} (good : α → Prop) (read : List Byte → Except DecodeError (α × List Byte))
    (bytes : List Byte) : Prop :=
  ∀ x rest, read bytes = .ok (x, rest) →
    good x ∧ ∃ head, bytes = head ++ rest ∧ ∀ other, read (head ++ other) = .ok (x, other)

section Readers

variable {α : Type} {good : α → Prop} {read : List Byte → Except DecodeError (α × List Byte)} {bytes : List Byte}

/-- A reader that refuses. -/
theorem readsHead_error (e : DecodeError) : ReadsHead good (fun _ => .error e) bytes := nofun

theorem readsHead_nil {e : DecodeError} (h : read [] = .error e) : ReadsHead good read [] := by
  intro x rest hread
  rw [h] at hread
  cases hread

/-- A reader that takes no byte. -/
theorem readsHead_pure {x : α} (hx : good x) : ReadsHead good (fun rest => .ok (x, rest)) bytes := by
  intro y rest h
  cases h
  exact ⟨hx, [], rfl, fun _ => rfl⟩

/-- A reader that takes one byte and goes on. -/
theorem readsHead_cons {b : Byte} (h : ReadsHead good (fun tail => read (b :: tail)) bytes) :
    ReadsHead good read (b :: bytes) := by
  intro x rest hread
  obtain ⟨hx, head, rfl, hother⟩ := h x rest hread
  exact ⟨hx, b :: head, rfl, hother⟩

theorem readsHead_ite {c : Prop} [Decidable c] {read' : List Byte → Except DecodeError (α × List Byte)}
    (hthen : c → ReadsHead good read bytes) (helse : ¬c → ReadsHead good read' bytes) :
    ReadsHead good (fun tail => if c then read tail else read' tail) bytes := by
  by_cases h : c
  · simpa only [h, if_true] using hthen h
  · simpa only [h, if_false] using helse h

/-- A reader of one operand byte. -/
theorem readsHead_byte {e : DecodeError} {mk : Byte → α} (hnil : read [] = .error e)
    (hcons : ∀ n tail, read (n :: tail) = .ok (mk n, tail)) (hgood : ∀ n, good (mk n)) :
    ReadsHead good read bytes := by
  cases bytes with
  | nil => exact readsHead_nil hnil
  | cons n tail =>
    apply readsHead_cons
    simp only [hcons]
    exact readsHead_pure (hgood n)

/-- A reader of two operand bytes, high byte first. -/
theorem readsHead_word {e e' : DecodeError} {mk : Word → α} (hnil : read [] = .error e)
    (hone : ∀ hi, read [hi] = .error e') (hcons : ∀ hi lo tail, read (hi :: lo :: tail) = .ok (mk (wordOf hi lo), tail))
    (hgood : ∀ v, good (mk v)) : ReadsHead good read bytes := by
  cases bytes with
  | nil => exact readsHead_nil hnil
  | cons hi tail =>
    exact readsHead_cons (readsHead_byte (hone hi) (hcons hi) fun lo => hgood (wordOf hi lo))

end Readers

/-! ### Operands -/

/-- Every mode of the table of R100 takes no operand byte, one or two, or is refused. -/
theorem readsHead_decodeIdxMode (pb : Byte) (bytes : List Byte) :
    ReadsHead (fun _ => True) (decodeIdxMode pb) bytes := by
  unfold decodeIdxMode
  dsimp only
  generalize (pb.extractLsb' 0 4).toNat = mode
  match mode with
  | 0x0 | 0x2 => exact readsHead_ite (fun _ => readsHead_error _) fun _ => readsHead_pure trivial
  | 0x1 | 0x3 | 0x4 | 0x5 | 0x6 | 0xB => exact readsHead_pure trivial
  | 0x8 | 0xC => exact readsHead_byte rfl (fun _ _ => rfl) fun _ => trivial
  | 0x9 | 0xD => exact readsHead_word rfl (fun _ => rfl) (fun _ _ _ => rfl) fun _ => trivial
  | 0xF =>
    exact readsHead_ite (fun _ => readsHead_word rfl (fun _ => rfl) (fun _ _ _ => rfl) fun _ => trivial)
      fun _ => readsHead_error _
  | 0x7 | 0xA | 0xE | n + 16 => exact readsHead_error _

theorem readsHead_decodeIdx (bytes : List Byte) : ReadsHead (fun _ => True) decodeIdx bytes := by
  cases bytes with
  | nil => exact readsHead_nil rfl
  | cons pb bytes =>
    exact readsHead_cons (readsHead_ite (fun _ => readsHead_decodeIdxMode pb bytes) fun _ => readsHead_pure trivial)

theorem validPair_of_decodePair {pb : Byte} {src dst : RegCode} (h : decodePair pb = .ok (src, dst)) :
    validPair src dst = true := by
  unfold decodePair at h
  split at h
  · split at h
    · next hvalid => cases h; exact hvalid
    · cases h
  · cases h

/-! ### Rows -/

/-- The instructions that a row can give are well formed. -/
def RowSound : Row → Prop
  | .inh i => i.wf = true
  | .imm8 mk | .dir mk | .rel8 mk | .stkpb mk => ∀ n, (mk n).wf = true
  | .imm16 mk | .ext mk | .rel16 mk => ∀ v, (mk v).wf = true
  | .idx mk => ∀ m, (mk m).wf = true
  | .regpb mk => ∀ src dst, validPair src dst = true → (mk src dst).wf = true

/-- TFR and EXG are the two rows with a register postbyte (R119), whose pair is checked (R120). -/
theorem forall_rowSound_page1Row1 : page1Row1.Forall fun c => RowSound c.2 :=
  ⟨rfl, rfl, fun _ => rfl, fun _ => rfl, rfl, fun _ => rfl, fun _ => rfl, rfl, fun _ _ hpair => hpair,
    fun _ _ hpair => hpair⟩

/-- Every row gives well-formed instructions: outside the line of TFR and EXG, whatever the operand is. -/
theorem rowSound_of_mem_rows (p : Page) : ∀ c ∈ p.rows, RowSound c.2 := by
  cases p <;>
    simp only [Page.rows, page1Rows, page2Rows, page3Rows, List.forall_mem_append, and_assoc,
      ← List.forall_iff_forall_mem]
  case' page1 => refine ⟨?_, forall_rowSound_page1Row1, ?_⟩
  all_goals
    dsimp only [List.Forall, page1Row0, page1Row2, page1Row3, page1Row4, page1Row5, page1Row6, page1Row7, page1Row8,
      page1Row9, page1RowA, page1RowB, page1RowC, page1RowD, page1RowE, page1RowF, page2Row2, page2Row3, page2Row8,
      page2Row9, page2RowA, page2RowB, page2RowC, page2RowD, page2RowE, page2RowF, page3Row3, page3Row8, page3Row9,
      page3RowA, page3RowB, RowSound]
    constructorm* _ ∧ _
    all_goals intros; rfl

theorem rowSound_of_lookup {p : Page} {op : Byte} {row : Row} (h : lookup p op = some row) : RowSound row :=
  rowSound_of_mem_rows p _ (mem_of_findRow h)

/-- A row reads its operands from the head of the bytes (R90). -/
theorem readsHead_decodeRow {row : Row} (hrow : RowSound row) (bytes : List Byte) :
    ReadsHead (fun i => i.wf = true) (decodeRow row) bytes := by
  cases row with
  | inh i => exact readsHead_pure hrow
  | imm8 mk | dir mk | rel8 mk | stkpb mk => exact readsHead_byte rfl (fun _ _ => rfl) hrow
  | imm16 mk | ext mk | rel16 mk => exact readsHead_word rfl (fun _ => rfl) (fun _ _ _ => rfl) hrow
  | idx mk =>
    intro i rest h
    cases hidx : decodeIdx bytes with
    | error e => simp only [decodeRow, hidx, reduceCtorEq] at h
    | ok r =>
      obtain ⟨m, tail⟩ := r
      obtain ⟨-, head, hhead, hother⟩ := readsHead_decodeIdx bytes m tail hidx
      simp only [decodeRow, hidx, Except.ok.injEq, Prod.mk.injEq] at h
      obtain ⟨rfl, rfl⟩ := h
      exact ⟨hrow m, head, hhead, fun other => by simp only [decodeRow, hother]⟩
  | regpb mk =>
    cases bytes with
    | nil => exact readsHead_nil rfl
    | cons pb bytes =>
      apply readsHead_cons
      cases hpair : decodePair pb with
      | error e =>
        simp only [decodeRow, hpair]
        exact readsHead_error e
      | ok r =>
        simp only [decodeRow, hpair]
        exact readsHead_pure (hrow _ _ (validPair_of_decodePair hpair))

theorem readsHead_decodeOpcode (p : Page) (op : Byte) (bytes : List Byte) :
    ReadsHead (fun i => i.wf = true) (decodeOpcode p op) bytes := by
  unfold decodeOpcode
  cases hrow : lookup p op with
  | none => exact readsHead_error _
  | some row => exact readsHead_decodeRow (rowSound_of_lookup hrow) bytes

/-! ### Prebytes -/

theorem readsHead_decodeAfterPrebyte (p : Page) (bytes : List Byte) :
    ReadsHead (fun i => i.wf = true) (decodeAfterPrebyte p) bytes := by
  induction bytes with
  | nil => exact readsHead_nil rfl
  | cons b bytes ih => exact readsHead_cons (readsHead_ite (fun _ => ih) fun _ => readsHead_decodeOpcode p b bytes)

theorem readsHead_decode (bytes : List Byte) : ReadsHead (fun i => i.wf = true) decode bytes := by
  cases bytes with
  | nil => exact readsHead_nil rfl
  | cons b bytes =>
    exact readsHead_cons (readsHead_ite (fun _ => readsHead_decodeAfterPrebyte .page2 bytes) fun _ =>
      readsHead_ite (fun _ => readsHead_decodeAfterPrebyte .page3 bytes) fun _ =>
        readsHead_decodeOpcode .page1 b bytes)

/-- Settles O47: the decoder reads a head (`readsHead_decode`), and not an empty one, for it refuses the empty list. -/
theorem decodeReadsWellFormed : Obligations.DecodeReadsWellFormed := by
  intro bytes rest i h
  obtain ⟨hwf, head, hbytes, hother⟩ := readsHead_decode bytes i rest h
  refine ⟨hwf, head, hbytes, List.length_pos_iff.mpr ?_, hother⟩
  rintro rfl
  exact nomatch hother []

theorem isPrebyte_iff {b : Byte} : isPrebyte b = true ↔ b = 0x10#8 ∨ b = 0x11#8 := by simp [isPrebyte]

/-- After a first prebyte, further prebytes are skipped (R92). -/
theorem decodeAfterPrebyte_append (p : Page) {more : List Byte} (hmore : ∀ b ∈ more, isPrebyte b = true)
    (bytes : List Byte) : decodeAfterPrebyte p (more ++ bytes) = decodeAfterPrebyte p bytes := by
  induction more with
  | nil => rfl
  | cons b more ih =>
    rw [List.forall_mem_cons] at hmore
    obtain ⟨hb, htail⟩ := hmore
    rw [List.cons_append, decodeAfterPrebyte, if_pos hb, ih htail]

/-- Settles O48: whichever the first prebyte is, those after it are skipped. -/
theorem repeatedPrebytes : Obligations.RepeatedPrebytes := by
  intro first more op rest hfirst hmore _ _
  have hskip (p : Page) : decodeAfterPrebyte p (more ++ op :: rest) = decodeAfterPrebyte p (op :: rest) :=
    decodeAfterPrebyte_append p (fun b hb => isPrebyte_iff.mpr (hmore b hb)) _
  rcases hfirst with rfl | rfl
  · exact hskip .page2
  · exact hskip .page3

/-! ### Undefined postbytes -/

/-- The fields of an indexed postbyte as numbers (R100). -/
theorem postbyte_bits (pb : Byte) :
    pb.getLsbD 7 = decide (128 ≤ pb.toNat) ∧ pb.getLsbD 4 = decide (16 ≤ pb.toNat % 32) ∧
      (pb.extractLsb' 0 4).toNat = pb.toNat % 16 := by
  refine ⟨BitVec.msb_eq_decide pb, ?_, by simp [BitVec.extractLsb'_toNat]⟩
  rw [BitVec.getLsbD, Nat.testBit_eq_decide_div_mod_eq]
  exact decide_eq_decide.mpr (by omega)

/-- With bit 7 set, the refused postbytes are those of R116, mode by mode. -/
theorem decodeIdxMode_eq_undefined_iff (pb b1 b2 : Byte) (rest : List Byte) :
    decodeIdxMode pb (b1 :: b2 :: rest) = .error .undefinedPostbyte ↔
      (pb.toNat % 16 = 7 ∨ pb.toNat % 16 = 10 ∨ pb.toNat % 16 = 14 ∨ (pb.toNat % 16 = 15 ∧ pb.toNat ≠ 0x9F) ∨
        (16 ≤ pb.toNat % 32 ∧ (pb.toNat % 16 = 0 ∨ pb.toNat % 16 = 2))) := by
  obtain ⟨-, hind, hmode⟩ := postbyte_bits pb
  have h9F : pb = 0x9F#8 ↔ pb.toNat = 0x9F := BitVec.toNat_inj.symm
  have hlt : pb.toNat % 16 < 16 := Nat.mod_lt _ (by decide)
  unfold decodeIdxMode
  dsimp only
  rw [hmode, hind]
  generalize pb.toNat % 16 = mode at hlt ⊢
  match mode, hlt with
  | 0x0, _ | 0x2, _ => by_cases h : 16 ≤ pb.toNat % 32 <;> simp [h]
  | 0xF, _ => by_cases h : pb.toNat = 0x9F <;> simp [h9F, h]
  | 0x1, _ | 0x3, _ | 0x4, _ | 0x5, _ | 0x6, _ | 0x7, _ | 0x8, _ | 0x9, _ | 0xA, _ | 0xB, _ | 0xC, _ | 0xD, _ |
    0xE, _ => simp
  | _ + 16, hbig => omega

/-- Settles O49: bit 7 clear is the form with a 5-bit offset (R101), which every postbyte has. -/
theorem undefinedPostbytes : Obligations.UndefinedPostbytes := by
  intro pb b1 b2 rest
  obtain ⟨hbit, -, -⟩ := postbyte_bits pb
  by_cases h : 128 ≤ pb.toNat
  · simp only [decodeIdx, hbit, h, decide_true, if_true, true_and, decodeIdxMode_eq_undefined_iff]
  · simp only [decodeIdx, hbit, h, decide_false, Bool.false_eq_true, if_false, false_and, reduceCtorEq]

/-! ### Words of the opcode maps -/

/-- Settles O50: ten of the words are the encodings of their instructions, the other three are refused. -/
theorem decodedWords : Obligations.DecodedWords :=
  ⟨decode_encode (i := .ldaImm _) rfl [], decode_encode (i := .ldaIdx (.off8 .x true _)) rfl [],
    decode_encode (i := .decExt 0xA000#16) rfl [], decode_encode (i := .adddImm 0x1234#16) rfl [],
    decode_encode (i := .ldyImm 0x1234#16) rfl [], decode_encode (i := .cmpuImm 0x1234#16) rfl [],
    decode_encode (i := .pshs _) rfl [], decode_encode (i := .tfr .a .dp) rfl [],
    decode_encode (i := .lbeq 0x0010#16) rfl [], decode_encode (i := .swi3) rfl [], rfl, rfl, rfl⟩

end Sys2Proof.Proofs
end

section
/-! Indexed operands (30_encoding.md R100 to R117): the effective addresses in integer arithmetic modulo 2^16, the
indirection, and what the auto increments and decrements change. -/

namespace Sys2Proof.Proofs

open Sys2Proof.Machine Sys2Proof.Claims

-- Elaborated one after another: each waiting theorem takes a thread of its own, and the check bounds their stacks.
set_option Elab.async false

/-! ### Displaced addresses -/

/-- A displacement is an addition modulo 2^16. -/
theorem displaced_eq_add (p : Word) (off : Int) : displaced p off = p + BitVec.ofInt 16 off := by
  rw [displaced, BitVec.ofInt_add, BitVec.ofInt_natCast, BitVec.ofNat_toNat, BitVec.setWidth_eq]

theorem add_eq_displaced (p off : Word) : p + off = displaced p off.toInt := by
  rw [displaced_eq_add, BitVec.ofInt_toInt]

/-- A byte offset counts as a signed number (R107 to R109, R112). -/
theorem add_sext8_eq_displaced (p : Word) (n : Byte) : p + sext8 n = displaced p n.toInt := (displaced_eq_add p _).symm

/-- So does the 5-bit offset (R101). -/
theorem add_sext5_eq_displaced (p : Word) (n : BitVec 5) : p + sext5 n = displaced p n.toInt :=
  (displaced_eq_add p _).symm

/-- D as an offset (R111): modulo 2^16 its sign makes no difference. -/
theorem add_d_eq_displaced (st : State) (p : Word) :
    p + st.d = displaced p (256 * (st.a.toNat : Int) + (st.b.toNat : Int)) := by
  have hd : 256 * (st.a.toNat : Int) + (st.b.toNat : Int) = (st.d.toNat : Int) := by
    rw [State.d, toNat_wordOf]
    push_cast
    ring
  rw [hd, displaced_eq_add, BitVec.ofInt_natCast, BitVec.ofNat_toNat, BitVec.setWidth_eq]

theorem add_one_eq_displaced (p : Word) : p + 1#16 = displaced p 1 := (displaced_eq_add p 1).symm
theorem add_two_eq_displaced (p : Word) : p + 2#16 = displaced p 2 := (displaced_eq_add p 2).symm
theorem sub_one_eq_displaced (p : Word) : p - 1#16 = displaced p (-1) := by
  rw [displaced_eq_add, BitVec.sub_eq_add_neg]; rfl
theorem sub_two_eq_displaced (p : Word) : p - 2#16 = displaced p (-2) := by
  rw [displaced_eq_add, BitVec.sub_eq_add_neg]; rfl

/-- Settles O21: each form adds its offset to its base register. -/
theorem indexedAddresses : Obligations.IndexedAddresses := by
  intro st r
  exact ⟨fun _ => add_sext5_eq_displaced _ _, rfl, rfl, sub_one_eq_displaced _, sub_two_eq_displaced _, rfl,
    add_sext8_eq_displaced _ _, add_sext8_eq_displaced _ _, fun _ => add_sext8_eq_displaced _ _,
    fun _ => add_eq_displaced _ _, add_d_eq_displaced st _, fun _ => add_sext8_eq_displaced _ _,
    fun _ => add_eq_displaced _ _⟩

/-! ### Indirection -/

/-- The address that an indirect operand holds, high byte first (R66, R115). -/
theorem toNat_readPointer (st : State) (a : Word) :
    (st.readPointer a).toNat =
      256 * (st.busRead .pointer a).toNat + (st.busRead .pointer (displaced a 1)).toNat := by
  rw [State.readPointer, toNat_wordOf, Nat.mul_comm, add_one_eq_displaced]

/-! ### Auto increment and decrement -/

/-- An adjusted pointer register is the only register that changes. -/
theorem setPtr_frame (st : State) (r : PtrReg) (v : Word) :
    (∀ q : PtrReg, q ≠ r → (st.setPtr r v).ptr q = st.ptr q) ∧
      { st.setPtr r v with x := st.x, y := st.y, u := st.u, s := st.s } = st :=
  ⟨fun q hq => st.ptr_setPtr_ne r q v hq, by cases r <;> rfl⟩

/-- Settles O22: the indirect forms read a pointer where the direct ones point, and `State.afterIndex` sets the pointer
register of an adjusting form and nothing else. -/
theorem indirectionAndAdjustment : Obligations.IndirectionAndAdjustment := by
  refine ⟨fun st r n w => ⟨?_, toNat_readPointer st w⟩, fun st r ind => ⟨?_, ?_, ?_, ?_, ?_⟩,
    fun st r ind k n w => ?_⟩
  · intro p hp
    have hpointer : st.indexedEA p.1 = st.readPointer (st.indexedEA p.2) := by
      revert p
      simp only [List.forall_mem_cons, State.indexedEA, State.indirect, Bool.false_eq_true, if_true, if_false,
        List.not_mem_nil, false_imp_iff, implies_true, and_self]
    rw [hpointer, toNat_readPointer]
  · rw [State.afterIndex, State.ptr_setPtr, add_one_eq_displaced]
  · rw [State.afterIndex, State.ptr_setPtr, add_two_eq_displaced]
  · rw [State.afterIndex, State.ptr_setPtr, sub_one_eq_displaced]
  · rw [State.afterIndex, State.ptr_setPtr, sub_two_eq_displaced]
  · simp only [List.forall_mem_cons]
    exact ⟨setPtr_frame st r _, setPtr_frame st r _, setPtr_frame st r _, setPtr_frame st r _, nofun⟩
  · simp only [List.forall_mem_cons]
    exact ⟨rfl, rfl, rfl, rfl, rfl, rfl, rfl, rfl, rfl, rfl, nofun⟩

end Sys2Proof.Proofs
end

section
/-! PSHS, PSHU, PULS and PULU (30_encoding.md R121, 43_index_stack.md R320 to R324): the bytes that a push stores, the
registers that a pull loads, and that a pull undoes a push to RAM. -/

namespace Sys2Proof.Proofs

open Sys2Proof.Machine Sys2Proof.Claims

-- Elaborated one after another: each waiting theorem takes a thread of its own, and the check bounds their stacks.
set_option Elab.async false

/-! ### The layout of a postbyte -/

/-- A word in memory is its high byte, then its low byte (R63). -/
theorem bytesOf_eq (v : Word) : bytesOf v = [hiByte v, loByte v] := by
  rw [bytesOf, ← toNat_hiByte, ← toNat_loByte, BitVec.ofNat_toNat, BitVec.ofNat_toNat, BitVec.setWidth_eq,
    BitVec.setWidth_eq]

/-- The bytes of the register of a postbyte bit (R121). -/
def regBytes (other : Word) (st : State) : Nat → List Byte
  | 0 => [st.cc.toByte]
  | 1 => [st.a]
  | 2 => [st.b]
  | 3 => [st.dp]
  | 4 => bytesOf st.x
  | 5 => bytesOf st.y
  | 6 => bytesOf other
  | _ => bytesOf st.pc

theorem length_regBytes (other : Word) (st : State) (n : Nat) :
    (regBytes other st n).length = if n < 4 then 1 else 2 := by
  match n with
  | 0 | 1 | 2 | 3 | 4 | 5 | 6 => rfl
  | _ + 7 => rfl

/-- The bytes of the registers of the bits below `n`, in the order in which they lie in memory. -/
def bytesUpTo (other : Word) (pb : Byte) (st : State) (n : Nat) : List Byte :=
  (List.range n).flatMap fun k => pick (pb.getLsbD k) (regBytes other st k)

theorem pushedBytes_eq_bytesUpTo (other : Word) (pb : Byte) (st : State) :
    pushedBytes other pb st = bytesUpTo other pb st 8 := by
  simp [pushedBytes, bytesUpTo, List.range_succ, regBytes]

theorem bytesUpTo_succ (other : Word) (pb : Byte) (st : State) (n : Nat) :
    bytesUpTo other pb st (n + 1) = bytesUpTo other pb st n ++ pick (pb.getLsbD n) (regBytes other st n) := by
  simp [bytesUpTo, List.range_succ]

theorem bytesBelow_succ (pb : Byte) (n : Nat) :
    bytesBelow pb (n + 1) = bytesBelow pb n + if pb.getLsbD n then (if n < 4 then 1 else 2) else 0 := by
  simp [bytesBelow, List.range_succ]

theorem length_bytesUpTo (other : Word) (pb : Byte) (st : State) (n : Nat) :
    (bytesUpTo other pb st n).length = bytesBelow pb n := by
  induction n with
  | zero => rfl
  | succ n ih =>
    rw [bytesUpTo_succ, List.length_append, ih, bytesBelow_succ]
    cases pb.getLsbD n <;> simp [pick, length_regBytes]

theorem bytesBelow_le (pb : Byte) (n : Nat) : bytesBelow pb n ≤ 2 * n := by
  induction n with
  | zero => exact Nat.le_refl 0
  | succ n ih =>
    rw [bytesBelow_succ]
    split
    · split <;> omega
    · omega

/-- The model pushes the highest byte first (R80). -/
theorem state_pushedBytes_eq_reverse (st : State) (k : Stack) (pb : Byte) :
    st.pushedBytes k pb = (pushedBytes (st.otherSp k) pb st).reverse := by
  have hpick (c : Bool) (l : List Byte) : (pick c l).reverse = if c then l.reverse else [] := by cases c <;> rfl
  simp [State.pushedBytes, pushedBytes, bytesOf_eq, hpick]

/-! ### Pushes -/

/-- Storing one more byte just above those stored after it. -/
theorem stored_snoc {st s t : State} {p : Word} {bytes : List Byte} {v : Byte} (hlength : bytes.length < 65536)
    (hkind : ∀ q, s.kindAt q = st.kindAt q)
    (hread : ∀ q, s.read8 q = if p + BitVec.ofNat 16 bytes.length = q ∧
      st.kindAt (p + BitVec.ofNat 16 bytes.length) = .ram then v else st.read8 q)
    (h : Stored s t p bytes) : Stored st t p (bytes ++ [v]) := by
  obtain ⟨hstored, houtside⟩ := h
  have hoffset {k : Nat} (hk : k < 65536) : (p + BitVec.ofNat 16 k - p).toNat = k := by
    rw [add_sub_cancel_left, BitVec.toNat_ofNat, Nat.mod_eq_of_lt hk]
  have hother {q : Word} (hq : (q - p).toNat ≠ bytes.length) : s.read8 q = st.read8 q := by
    rw [hread, if_neg]
    rintro ⟨rfl, -⟩
    exact hq (hoffset hlength)
  refine ⟨fun k hk => ?_, fun q hq => ?_⟩
  · rw [List.length_append, List.length_singleton] at hk
    rcases Nat.lt_succ_iff_lt_or_eq.mp hk with hlt | rfl
    · have hne : (p + BitVec.ofNat 16 k - p).toNat ≠ bytes.length := by
        rw [hoffset (hlt.trans hlength)]
        exact hlt.ne
      rw [hstored k hlt, hkind, hother hne, List.getElem_append_left hlt]
    · rw [houtside _ (hoffset hlength).ge, hread]
      simp
  · rw [List.length_append, List.length_singleton] at hq
    rw [houtside q (Nat.le_of_succ_le hq), hother (Nat.ne_of_gt hq)]

/-- A row of pushed bytes lies below the old stack pointer, the last one lowest (R80). -/
theorem stored_foldl_push8 (k : Stack) (vs : List Byte) (st : State) (hlength : vs.length ≤ 65536) :
    Stored st (vs.foldl (fun s v => s.push8 k v) st) (st.sp k - BitVec.ofNat 16 vs.length) vs.reverse := by
  induction vs generalizing st with
  | nil => exact ⟨nofun, fun _ _ => rfl⟩
  | cons v vs ih =>
    have hbase : st.sp k - BitVec.ofNat 16 (v :: vs).length = (st.push8 k v).sp k - BitVec.ofNat 16 vs.length := by
      rw [State.sp_push8, List.length_cons, Nat.add_comm, BitVec.ofNat_add, BitVec.sub_sub]
    have htop : (st.push8 k v).sp k - BitVec.ofNat 16 vs.length + BitVec.ofNat 16 vs.reverse.length =
        st.sp k - 1#16 := by
      rw [List.length_reverse, BitVec.sub_add_cancel, State.sp_push8]
    rw [List.foldl_cons, List.reverse_cons, hbase]
    refine stored_snoc (by simpa using hlength) (State.push8_kindAt st k v) (fun q => ?_)
      (ih (st.push8 k v) (Nat.le_of_succ_le hlength))
    rw [htop, State.read8_push8]

/-- A push changes memory and its stack pointer alone. -/
theorem foldl_push8_eq (k : Stack) (vs : List Byte) (st : State) :
    vs.foldl (fun s v => s.push8 k v) st =
      { st.setSp k (st.sp k - BitVec.ofNat 16 vs.length) with mem := (vs.foldl (fun s v => s.push8 k v) st).mem } := by
  induction vs generalizing st with
  | nil => cases k <;> simp [State.setSp, State.sp]
  | cons v vs ih =>
    have hbase : (st.push8 k v).sp k - BitVec.ofNat 16 vs.length = st.sp k - BitVec.ofNat 16 (v :: vs).length := by
      rw [State.sp_push8, List.length_cons, Nat.add_comm, BitVec.ofNat_add, BitVec.sub_sub]
    rw [List.foldl_cons, ih, hbase]
    cases k <;> rfl

/-- A push of registers: the bytes that it stores, and its frame (R321, R322). -/
theorem pushRegs_stores (st : State) (k : Stack) (pb : Byte) :
    Stored st (st.pushRegs k pb) (st.sp k - BitVec.ofNat 16 (bytesBelow pb 8)) (pushedBytes (st.otherSp k) pb st) ∧
      st.pushRegs k pb =
        { st.setSp k (st.sp k - BitVec.ofNat 16 (bytesBelow pb 8)) with mem := (st.pushRegs k pb).mem } := by
  have hlength : (st.pushedBytes k pb).length = bytesBelow pb 8 := by
    rw [state_pushedBytes_eq_reverse, List.length_reverse, pushedBytes_eq_bytesUpTo, length_bytesUpTo]
  have hreverse : pushedBytes (st.otherSp k) pb st = (st.pushedBytes k pb).reverse := by
    rw [state_pushedBytes_eq_reverse, List.reverse_reverse]
  have hbound : (st.pushedBytes k pb).length ≤ 65536 := by
    rw [hlength]
    exact (bytesBelow_le pb 8).trans (by decide)
  rw [Laws.pushRegs_eq, hreverse, ← hlength]
  exact ⟨stored_foldl_push8 k _ st hbound, foldl_push8_eq k _ st⟩

/-- Settles O23, by the stored bytes and the frame of a push of registers. -/
theorem pushInstructions : Obligations.PushInstructions :=
  fun st pb => ⟨⟨_, rfl, pushRegs_stores st .s pb⟩, ⟨_, rfl, pushRegs_stores st .u pb⟩⟩

/-! ### Pulls -/

/-- A pull of a byte register, if its bit is set. -/
def pull8If (k : Stack) (bit : Bool) (put : State → Byte → State) (s : State) : State :=
  if bit then put (s.drop k 1#16) (s.top8 k) else s

/-- A pull of a word register, if its bit is set. -/
def pull16If (k : Stack) (bit : Bool) (put : State → Word → State) (s : State) : State :=
  if bit then put (s.drop k 2#16) (s.top16 k) else s

/-- The pull of registers, one after another (R323, R324). -/
theorem pullRegs_eq_pullIfs (st : State) (k : Stack) (pb : Byte) :
    st.pullRegs k pb =
      pull16If k (pb.getLsbD 7) (fun s v => { s with pc := v })
        (pull16If k (pb.getLsbD 6) (fun s v => s.loadOtherSp k v)
          (pull16If k (pb.getLsbD 5) (fun s v => s.setPtr .y v)
            (pull16If k (pb.getLsbD 4) (fun s v => s.setPtr .x v)
              (pull8If k (pb.getLsbD 3) (fun s v => { s with dp := v })
                (pull8If k (pb.getLsbD 2) (fun s v => s.setAcc .b v)
                  (pull8If k (pb.getLsbD 1) (fun s v => s.setAcc .a v)
                    (pull8If k (pb.getLsbD 0) (fun s v => { s with cc := CC.ofByte v }) st))))))) := rfl

theorem setSp_sp (s : State) (k : Stack) : s.setSp k (s.sp k) = s := by cases k <;> rfl

section Pulls

/-! In the state `s` the registers of the bits below `n` are pulled: the stack pointer is past their bytes, and the bus
is as it was in `st`. -/

variable {st s : State} {k : Stack} {pb : Byte} {n : Nat}

/-- The stack pointer moves past the register of bit `n`. -/
theorem drop_eq_setSp (hsp : s.sp k = st.sp k + BitVec.ofNat 16 (bytesBelow pb n)) (hbit : pb.getLsbD n = true) :
    s.drop k (BitVec.ofNat 16 (if n < 4 then 1 else 2)) =
      s.setSp k (st.sp k + BitVec.ofNat 16 (bytesBelow pb (n + 1))) := by
  rw [State.drop, hsp, bytesBelow_succ, if_pos hbit, BitVec.ofNat_add, BitVec.add_assoc]

/-- The stack pointer stays where bit `n` is clear. -/
theorem setSp_bytesBelow_succ (hsp : s.sp k = st.sp k + BitVec.ofNat 16 (bytesBelow pb n))
    (hbit : pb.getLsbD n = false) : s.setSp k (st.sp k + BitVec.ofNat 16 (bytesBelow pb (n + 1))) = s := by
  rw [bytesBelow_succ, hbit, if_neg Bool.false_ne_true, Nat.add_zero, ← hsp, setSp_sp]

/-- The pull of the byte register of bit `n`, which was `old`. -/
theorem pull8If_eq {put : State → Byte → State} {old : Byte}
    (hsp : s.sp k = st.sp k + BitVec.ofNat 16 (bytesBelow pb n)) (hmem : s.mem = st.mem)
    (hplatform : s.platform = st.platform) (htime : s.busTime = st.busTime) (hn : (if n < 4 then 1 else 2) = 1)
    (hkeep : put s old = s) :
    pull8If k (pb.getLsbD n) put s =
      put (s.setSp k (st.sp k + BitVec.ofNat 16 (bytesBelow pb (n + 1)))) (pulled8 st (st.sp k) pb n old) := by
  cases hbit : pb.getLsbD n with
  | false => simp only [pull8If, pulled8, hbit, Bool.false_eq_true, if_false, setSp_bytesBelow_succ hsp hbit, hkeep]
  | true =>
    have hdrop := drop_eq_setSp hsp hbit
    rw [hn] at hdrop
    simp only [pull8If, pulled8, hbit, if_true, hdrop, State.top8, hsp, State.read8_congr hmem hplatform htime]

/-- The pull of the word register of bit `n`, which was `old`. -/
theorem pull16If_eq {put : State → Word → State} {old : Word}
    (hsp : s.sp k = st.sp k + BitVec.ofNat 16 (bytesBelow pb n)) (hmem : s.mem = st.mem)
    (hplatform : s.platform = st.platform) (htime : s.busTime = st.busTime) (hn : (if n < 4 then 1 else 2) = 2)
    (hclear : pb.getLsbD n = false → put s old = s) :
    pull16If k (pb.getLsbD n) put s =
      put (s.setSp k (st.sp k + BitVec.ofNat 16 (bytesBelow pb (n + 1)))) (pulled16 st (st.sp k) pb n old) := by
  cases hbit : pb.getLsbD n with
  | false =>
    simp only [pull16If, pulled16, hbit, Bool.false_eq_true, if_false, setSp_bytesBelow_succ hsp hbit, hclear hbit]
  | true =>
    have hdrop := drop_eq_setSp hsp hbit
    rw [hn] at hdrop
    simp only [pull16If, pulled16, hbit, if_true, hdrop, State.top16, State.read16_eq, hsp,
      State.read8_congr hmem hplatform htime]

/-- The other stack pointer after a pull: S of PULU arms NMI under the wide set if its bit is set (R324, D9). -/
def withOtherSp (k : Stack) (bit : Bool) (s : State) (v : Word) : State :=
  match k with
  | .s => { s with u := v }
  | .u => { s with s := v, nmiArmed := s.nmiArmed || (bit && wide s) }

theorem pull16If_loadOtherSp (k : Stack) (bit : Bool) (s : State) :
    pull16If k bit (fun s v => s.loadOtherSp k v) s = pull16If k bit (withOtherSp k bit) s := by
  cases k <;> cases bit <;> rfl

theorem withOtherSp_false (k : Stack) (s : State) : withOtherSp k false s (s.otherSp k) = s := by
  cases k <;> simp [withOtherSp, State.otherSp]

/-- The pull of the other stack pointer, bit 6. -/
theorem pull16If_otherSp_eq (hsp : s.sp k = st.sp k + BitVec.ofNat 16 (bytesBelow pb 6))
    (hmem : s.mem = st.mem) (hplatform : s.platform = st.platform) (htime : s.busTime = st.busTime)
    (hother : s.otherSp k = st.otherSp k) :
    pull16If k (pb.getLsbD 6) (fun s v => s.loadOtherSp k v) s =
      withOtherSp k (pb.getLsbD 6) (s.setSp k (st.sp k + BitVec.ofNat 16 (bytesBelow pb 7)))
        (pulled16 st (st.sp k) pb 6 (st.otherSp k)) := by
  rw [pull16If_loadOtherSp]
  refine pull16If_eq hsp hmem hplatform htime rfl fun hbit => ?_
  rw [hbit, ← hother, withOtherSp_false]

end Pulls

/-- A pull of registers: every register from its place above the old stack pointer (R323, R324). -/
theorem pullRegs_eq (st : State) (k : Stack) (pb : Byte) :
    st.pullRegs k pb =
      withOtherSp k (pb.getLsbD 6)
        ((pulledCommon st (st.sp k) pb).setSp k (st.sp k + BitVec.ofNat 16 (bytesBelow pb 8)))
        (pulled16 st (st.sp k) pb 6 (st.otherSp k)) := by
  have hstart : st.sp k = st.sp k + BitVec.ofNat 16 (bytesBelow pb 0) := (BitVec.add_zero _).symm
  have hcc : { st with cc := CC.ofByte st.cc.toByte } = st := by rw [CC.ofByte_toByte]
  rw [pullRegs_eq_pullIfs, pull8If_eq hstart rfl rfl rfl rfl hcc, pull8If_eq (st := st) (n := 1) (old := st.a),
    pull8If_eq (st := st) (n := 2) (old := st.b), pull8If_eq (st := st) (n := 3) (old := st.dp),
    pull16If_eq (st := st) (n := 4) (old := st.x), pull16If_eq (st := st) (n := 5) (old := st.y),
    pull16If_otherSp_eq (st := st), pull16If_eq (st := st) (n := 7) (old := st.pc)]
  case hclear | hclear | hclear => exact fun _ => by cases k <;> rfl
  all_goals cases k <;> rfl

/-- Settles O24, by the pull of registers on either stack. -/
theorem pullInstructions : Obligations.PullInstructions :=
  fun st pb => ⟨⟨_, rfl, pullRegs_eq st .s pb⟩, ⟨_, rfl, pullRegs_eq st .u pb⟩⟩

/-! ### A push and a later pull -/

theorem liesAt_append {h : State} {p : Word} {xs ys : List Byte} :
    LiesAt h p (xs ++ ys) ↔ LiesAt h p xs ∧ LiesAt h (p + BitVec.ofNat 16 xs.length) ys := by
  induction xs generalizing p with
  | nil =>
    have hnil : LiesAt h p [] := nofun
    simp [hnil]
  | cons x xs ih =>
    have hnext : p + 1#16 + BitVec.ofNat 16 xs.length = p + BitVec.ofNat 16 (x :: xs).length := by
      rw [List.length_cons, Nat.add_comm, BitVec.ofNat_add, BitVec.add_assoc]
    rw [List.cons_append, liesAt_cons, liesAt_cons, ih, hnext, and_assoc, and_assoc]

/-- Bytes stored in RAM lie there in every state with that memory and platform. -/
theorem liesAt_of_storedAt {st t h : State} {p : Word} {bytes : List Byte} (hstored : StoredAt st t p bytes)
    (hram : AllRam st p bytes.length) (ht : t.platform = st.platform) (hmem : h.mem = t.mem)
    (hplatform : h.platform = t.platform) : LiesAt h p bytes := by
  intro k hk
  have hst : st.kindAt (p + BitVec.ofNat 16 k) = .ram := hram k hk
  have htk : t.kindAt (p + BitVec.ofNat 16 k) ≠ .device := by
    rw [State.kindAt, ht, ← State.kindAt, hst]
    decide
  have hhk : h.kindAt (p + BitVec.ofNat 16 k) ≠ .device := by rwa [State.kindAt, hplatform]
  refine ⟨hhk, ?_⟩
  have hbyte := hstored k hk
  rw [if_pos hst] at hbyte
  rw [← hbyte, State.read8, State.read8, State.busRead_memory _ _ hhk, State.busRead_memory _ _ htk, hmem]

section ReadBack

/-! In the state `h` the bytes that a push of `st` stores lie at `p`. -/

variable {st h : State} {p other : Word} {pb : Byte} {n : Nat}

/-- A selected register lies past the bytes of the bits below its own. -/
theorem liesAt_regBytes {m : Nat} (hlies : LiesAt h p (bytesUpTo other pb st m)) (hn : n < m)
    (hbit : pb.getLsbD n = true) : LiesAt h (p + BitVec.ofNat 16 (bytesBelow pb n)) (regBytes other st n) := by
  induction m with
  | zero => cases hn
  | succ m ih =>
    rw [bytesUpTo_succ, liesAt_append, length_bytesUpTo] at hlies
    obtain ⟨hbelow, hlast⟩ := hlies
    rcases Nat.lt_succ_iff_lt_or_eq.mp hn with hlt | rfl
    · exact ih hbelow hlt
    · rwa [hbit] at hlast

theorem pulled8_of_liesAt {v : Byte} (hlies : LiesAt h p (pushedBytes other pb st)) (hn : n < 8)
    (hreg : regBytes other st n = [v]) (old : Byte) :
    pulled8 h p pb n old = if pb.getLsbD n then v else old := by
  rw [pushedBytes_eq_bytesUpTo] at hlies
  refine ite_congr rfl (fun hbit => ?_) fun _ => rfl
  have hbyte := liesAt_regBytes hlies hn hbit
  rw [hreg, liesAt_cons] at hbyte
  obtain ⟨-, hread, -⟩ := hbyte
  exact hread

theorem pulled16_of_liesAt {v : Word} (hlies : LiesAt h p (pushedBytes other pb st)) (hn : n < 8)
    (hreg : regBytes other st n = bytesOf v) (old : Word) :
    pulled16 h p pb n old = if pb.getLsbD n then v else old := by
  rw [pushedBytes_eq_bytesUpTo] at hlies
  refine ite_congr rfl (fun hbit => ?_) fun _ => rfl
  have hbytes := liesAt_regBytes hlies hn hbit
  rw [hreg, bytesOf_eq, liesAt_cons, liesAt_cons] at hbytes
  obtain ⟨-, hhi, -, hlo, -⟩ := hbytes
  rw [State.read16_eq, hhi, hlo, wordOf_hiByte_loByte]

/-- `h` with the selected registers of `st`, the stack pointers apart. -/
def withRegsOf (st : State) (pb : Byte) (h : State) : State :=
  { h with
    cc := if pb.getLsbD 0 then st.cc else h.cc
    a := if pb.getLsbD 1 then st.a else h.a
    b := if pb.getLsbD 2 then st.b else h.b
    dp := if pb.getLsbD 3 then st.dp else h.dp
    x := if pb.getLsbD 4 then st.x else h.x
    y := if pb.getLsbD 5 then st.y else h.y
    pc := if pb.getLsbD 7 then st.pc else h.pc }

theorem pulledCommon_of_liesAt (hlies : LiesAt h p (pushedBytes other pb st)) :
    pulledCommon h p pb = withRegsOf st pb h := by
  rw [pulledCommon, pulled8_of_liesAt (n := 0) hlies (by decide) rfl, pulled8_of_liesAt (n := 1) hlies (by decide) rfl,
    pulled8_of_liesAt (n := 2) hlies (by decide) rfl, pulled8_of_liesAt (n := 3) hlies (by decide) rfl,
    pulled16_of_liesAt (n := 4) hlies (by decide) rfl, pulled16_of_liesAt (n := 5) hlies (by decide) rfl,
    pulled16_of_liesAt (n := 7) hlies (by decide) rfl, apply_ite CC.ofByte, CC.ofByte_toByte, CC.ofByte_toByte]
  rfl

end ReadBack

/-- A pull after a push to RAM gives the selected registers back and moves the stack pointer back. -/
theorem pullRegs_of_pushRegs {st h : State} {k : Stack} {pb : Byte}
    (hram : AllRam st ((st.pushRegs k pb).sp k) (bytesBelow pb 8)) (hsp : h.sp k = (st.pushRegs k pb).sp k)
    (hmem : h.mem = (st.pushRegs k pb).mem) (hplatform : h.platform = (st.pushRegs k pb).platform) :
    h.pullRegs k pb =
      withOtherSp k (pb.getLsbD 6) ((withRegsOf st pb h).setSp k (st.sp k))
        (if pb.getLsbD 6 then st.otherSp k else h.otherSp k) := by
  obtain ⟨⟨hstored, -⟩, hframe⟩ := pushRegs_stores st k pb
  obtain ⟨hsame, -⟩ := State.surroundings_eq_iff.mp (st.surroundings_pushRegs k pb)
  have hpushed : (st.pushRegs k pb).sp k = st.sp k - BitVec.ofNat 16 (bytesBelow pb 8) := by
    rw [hframe]
    cases k <;> rfl
  have hlength : (pushedBytes (st.otherSp k) pb st).length = bytesBelow pb 8 := by
    rw [pushedBytes_eq_bytesUpTo, length_bytesUpTo]
  rw [hpushed] at hram hsp
  have hbytes : AllRam st (st.sp k - BitVec.ofNat 16 (bytesBelow pb 8)) (pushedBytes (st.otherSp k) pb st).length := by
    rwa [hlength]
  have hlies : LiesAt h (h.sp k) (pushedBytes (st.otherSp k) pb st) := by
    rw [hsp]
    exact liesAt_of_storedAt hstored hbytes hsame hmem hplatform
  have hback : h.sp k + BitVec.ofNat 16 (bytesBelow pb 8) = st.sp k := by rw [hsp, BitVec.sub_add_cancel]
  rw [pullRegs_eq, pulledCommon_of_liesAt hlies, pulled16_of_liesAt hlies (by decide) rfl, hback]

/-- Settles O25, by the pull of what a push of registers stored, on either stack. -/
theorem pushThenPull : Obligations.PushThenPull := by
  intro st pb
  refine ⟨⟨_, rfl, fun h hram hsp hmem hplatform => ⟨_, rfl, ?_⟩⟩,
    ⟨_, rfl, fun h hram hsp hmem hplatform => ⟨_, rfl, ?_⟩⟩⟩
  · exact pullRegs_of_pushRegs (k := .s) hram hsp hmem hplatform
  · exact pullRegs_of_pushRegs (k := .u) hram hsp hmem hplatform

end Sys2Proof.Proofs
end

section
/-! The flag functions of 00_scope.md R9 to R13 in plain arithmetic: N, Z, V and C of sums, differences and tested
values. -/

namespace Sys2Proof.Proofs

open Sys2Proof.Machine Sys2Proof.Claims

-- Elaborated one after another: each waiting theorem takes a thread of its own, and the check bounds their stacks.
set_option Elab.async false

/-! ### N and Z -/

theorem isNeg_byte (r : Byte) : isNeg r = decide (128 ≤ r.toNat) := BitVec.msb_eq_decide r

theorem isNeg_word (r : Word) : isNeg r = decide (32768 ≤ r.toNat) := BitVec.msb_eq_decide r

theorem isZero_eq {w : Nat} (r : BitVec w) : isZero r = decide (r.toNat = 0) := by
  rw [isZero, Bool.eq_iff_iff, beq_iff_eq, decide_eq_true_iff, ← BitVec.toNat_inj, BitVec.toNat_ofNat, Nat.zero_mod]

theorem setNZ0_byte (cc : CC) (r : Byte) : cc.setNZ0 r = testFlags8 cc r := by
  rw [CC.setNZ0, testFlags8, isNeg_byte, isZero_eq]

/-! ### Signed values -/

/-- The signed value of a byte (R7). -/
theorem toInt_byte (x : Byte) : x.toInt = if x.toNat < 128 then (x.toNat : Int) else (x.toNat : Int) - 256 := by
  have hcond : x.toNat < 128 ↔ 2 * x.toNat < 2 ^ 8 := by omega
  simp only [BitVec.toInt_eq_toNat_cond, hcond]
  rfl

/-- The signed value of a word (R7). -/
theorem toInt_word (x : Word) : x.toInt = if x.toNat < 32768 then (x.toNat : Int) else (x.toNat : Int) - 65536 := by
  have hcond : x.toNat < 32768 ↔ 2 * x.toNat < 2 ^ 16 := by omega
  simp only [BitVec.toInt_eq_toNat_cond, hcond]
  rfl

/-! ### Sums of bytes -/

theorem toNat_add8 (x y : Byte) (cin : Bool) : (add8 x y cin).r.toNat = (x.toNat + y.toNat + cin.toNat) % 256 :=
  BitVec.toNat_ofNat _ _

theorem add8_c (x y : Byte) (cin : Bool) : (add8 x y cin).c = decide (256 ≤ x.toNat + y.toNat + cin.toNat) := rfl

/-- The carries out of bits 7 and 6 differ exactly where the signed sum leaves the range (R10). -/
theorem add8_v (x y : Byte) (cin : Bool) : (add8 x y cin).v = overflows8 (x.toInt + y.toInt + (cin.toNat : Int)) := by
  have hx := x.isLt
  have hy := y.isLt
  have hc := cin.toNat_le
  rw [add8, overflows8, toInt_byte, toInt_byte, Bool.eq_iff_iff, bne_iff_ne, ne_eq, decide_eq_decide,
    decide_eq_true_iff]
  split <;> split <;> omega

/-- The flags of a sum of bytes (R10). -/
theorem sumFlags (cc : CC) (x y : Byte) (cin : Bool) :
    { cc.setNZVC (add8 x y cin) with h := halfCarry x y cin } =
      { cc with
        h := decide (16 ≤ x.toNat % 16 + y.toNat % 16 + cin.toNat)
        n := decide (128 ≤ (x.toNat + y.toNat + cin.toNat) % 256)
        z := decide ((x.toNat + y.toNat + cin.toNat) % 256 = 0)
        v := overflows8 (x.toInt + y.toInt + (cin.toNat : Int))
        c := decide (256 ≤ x.toNat + y.toNat + cin.toNat) } := by
  have hn : (add8 x y cin).n = isNeg (add8 x y cin).r := rfl
  have hz : (add8 x y cin).z = isZero (add8 x y cin).r := rfl
  rw [CC.setNZVC, hn, hz, add8_v, add8_c, isNeg_byte, isZero_eq, toNat_add8]
  rfl

/-! ### Differences of bytes -/

theorem toNat_sub8 (x y : Byte) (bin : Bool) :
    ((sub8 x y bin).r.toNat : Int) = ((x.toNat : Int) - (y.toNat : Int) - (bin.toNat : Int)) % 256 := by
  have hy := y.isLt
  have hb := bin.toNat_le
  rw [sub8, BitVec.toNat_ofNat]
  omega

theorem sub8_r (x y : Byte) (bin : Bool) :
    (sub8 x y bin).r = BitVec.ofInt 8 ((x.toNat : Int) - (y.toNat : Int) - (bin.toNat : Int)) := by
  have h := toNat_sub8 x y bin
  apply BitVec.eq_of_toNat_eq
  rw [BitVec.toNat_ofInt]
  omega

/-- Operands of unlike sign and a result of the sign of the second: the signed difference leaves the range (R11). -/
theorem sub8_v (x y : Byte) (bin : Bool) : (sub8 x y bin).v = overflows8 (x.toInt - y.toInt - (bin.toNat : Int)) := by
  have hx := x.isLt
  have hy := y.isLt
  have hb := bin.toNat_le
  have hv : (sub8 x y bin).v = (x.msb != y.msb && (sub8 x y bin).r.msb != x.msb) := rfl
  have hr := toNat_sub8 x y bin
  rw [hv, overflows8, toInt_byte, toInt_byte, BitVec.msb_eq_decide, BitVec.msb_eq_decide, BitVec.msb_eq_decide,
    Bool.eq_iff_iff, Bool.and_eq_true, bne_iff_ne, bne_iff_ne, ne_eq, ne_eq, decide_eq_decide, decide_eq_decide,
    decide_eq_true_iff]
  split <;> split <;> omega

/-- The flags of a difference of bytes, with the given H (R11). -/
theorem differenceFlags8_eq (cc : CC) (x y : Byte) (bin h : Bool) :
    { cc.setNZVC (sub8 x y bin) with h := h } = differenceFlags8 cc x y bin h := by
  have hn : (sub8 x y bin).n = isNeg (sub8 x y bin).r := rfl
  have hz : (sub8 x y bin).z = isZero (sub8 x y bin).r := rfl
  have hc : (sub8 x y bin).c = decide ((x.toNat : Int) - (y.toNat : Int) - (bin.toNat : Int) < 0) :=
    decide_eq_decide.mpr (by omega)
  have hr := toNat_sub8 x y bin
  have hneg : isNeg (sub8 x y bin).r =
      decide (128 ≤ ((x.toNat : Int) - (y.toNat : Int) - (bin.toNat : Int)) % 256) := by
    rw [isNeg_byte, ← hr, decide_eq_decide]
    omega
  have hzero : isZero (sub8 x y bin).r =
      decide (((x.toNat : Int) - (y.toNat : Int) - (bin.toNat : Int)) % 256 = 0) := by
    rw [isZero_eq, ← hr, decide_eq_decide]
    omega
  rw [CC.setNZVC, hn, hz, hc, sub8_v, hneg, hzero]
  rfl

/-! ### Differences of words -/

theorem toNat_sub16 (x y : Word) : (sub16 x y).r.toNat = (x.toNat + 65536 - y.toNat) % 65536 := BitVec.toNat_ofNat _ _

/-- Operands of unlike sign and a result of the sign of the second: the signed difference leaves the range (R13). -/
theorem sub16_v (x y : Word) : (sub16 x y).v = overflows16 (x.toInt - y.toInt) := by
  have hx := x.isLt
  have hy := y.isLt
  have hv : (sub16 x y).v = (x.msb != y.msb && (sub16 x y).r.msb != x.msb) := rfl
  rw [hv, overflows16, toInt_word, toInt_word, BitVec.msb_eq_decide, BitVec.msb_eq_decide, BitVec.msb_eq_decide,
    toNat_sub16, Bool.eq_iff_iff, Bool.and_eq_true, bne_iff_ne, bne_iff_ne, ne_eq, ne_eq, decide_eq_decide,
    decide_eq_decide, decide_eq_true_iff]
  split <;> split <;> omega

/-- The flags of a difference of words (R13). -/
theorem setNZVC_sub16 (cc : CC) (x y : Word) : cc.setNZVC (sub16 x y) = differenceFlags16 cc x y := by
  have hn : (sub16 x y).n = isNeg (sub16 x y).r := rfl
  have hz : (sub16 x y).z = isZero (sub16 x y).r := rfl
  rw [CC.setNZVC, hn, hz, sub16_v, isNeg_word, isZero_eq, toNat_sub16]
  rfl

end Sys2Proof.Proofs
end

section
/-! The 8-bit accumulator instructions with a memory operand (40_alu8_memory_operand.md R150 to R173): what each
operation does to the state, and that each row of the table runs its operation on the operand of its form. -/

namespace Sys2Proof.Proofs

open Sys2Proof.Machine Sys2Proof.Claims

-- Elaborated one after another: each waiting theorem takes a thread of its own, and the check bounds their stacks.
set_option Elab.async false

/-! ### The rows of an operation -/

/-- The four instructions run the operation on a byte operand, each in its own form (R150). -/
structure RunsOnByte (op : Byte → State → State) (imm dir : Byte → Instr) (idx : Idx → Instr) (ext : Word → Instr) :
    Prop where
  imm : ∀ v st, exec (imm v) st = .next (op v st)
  dir : ∀ lo st, exec (dir lo) st = .next (atDir (load8 op) lo st)
  idx : ∀ m st, exec (idx m) st = .next (atIdx (load8 op) m st)
  ext : ∀ a st, exec (ext a) st = .next (atExt (load8 op) a st)

/-- What an operation does to every operand byte, its rows do in every form. -/
theorem RunsOnByte.byteForms {op : Byte → State → State} {imm dir : Byte → Instr} {idx : Idx → Instr}
    {ext : Word → Instr} {post : Byte → State → State → Prop} (h : RunsOnByte op imm dir idx ext)
    (hpost : ∀ v s, post v s (op v s)) : ByteForms imm dir idx ext post := by
  refine fun st => ⟨fun v => ⟨_, h.imm v st, hpost _ _⟩, fun lo => ⟨_, h.dir lo st, hpost _ _⟩, fun m => ?_,
    fun a => ⟨_, h.ext a st, hpost _ _⟩⟩
  have hop := hpost ((st.afterIndex m).read8 (st.indexedEA m)) (st.afterIndex m)
  rw [State.read8_afterIndex] at hop
  refine ⟨_, h.idx m st, ?_⟩
  rwa [atIdx, load8, State.read8_afterIndex]

/-- The three instructions run the operation on an effective address, each in its own form (R96, R97, R117). -/
structure RunsAtAddress (op : Word → State → State) (dir : Byte → Instr) (idx : Idx → Instr) (ext : Word → Instr) :
    Prop where
  dir : ∀ lo st, exec (dir lo) st = .next (atDir op lo st)
  idx : ∀ m st, exec (idx m) st = .next (atIdx op m st)
  ext : ∀ a st, exec (ext a) st = .next (atExt op a st)

/-- What an operation does at every effective address, its rows do in every form. -/
theorem RunsAtAddress.addressForms {op : Word → State → State} {dir : Byte → Instr} {idx : Idx → Instr}
    {ext : Word → Instr} {post : Word → State → State → Prop} (h : RunsAtAddress op dir idx ext)
    (hpost : ∀ ea s, post ea s (op ea s)) : AddressForms dir idx ext post :=
  fun st => ⟨fun lo => ⟨_, h.dir lo st, hpost _ _⟩, fun m => ⟨_, h.idx m st, hpost _ _⟩,
    fun a => ⟨_, h.ext a st, hpost _ _⟩⟩

/-! ### Sums and differences -/

theorem adc_post (r : Acc) (v : Byte) (s : State) : AddPost r (fun s => s.cc.c) v s (adc r v s) := by
  dsimp only [AddPost]
  rw [adc, sumFlags]
  rfl

theorem add_post (r : Acc) (v : Byte) (s : State) : AddPost r (fun _ => false) v s (add r v s) := by
  dsimp only [AddPost]
  rw [add, sumFlags]
  rfl

/-- Writing the flags of a difference and leaving H undefined (D6). -/
theorem undefH_difference (s : State) (cc : CC) (x y : Byte) (bin : Bool) :
    { s with cc := cc.setNZVC (sub8 x y bin) }.undefH =
      { s with cc := differenceFlags8 cc x y bin (Config.undefBit s.draws), draws := s.draws + 1 } := by
  rw [State.undefH, ← differenceFlags8_eq]

/-- SUB and SBC are one operation, with and without a borrow. -/
theorem subtract_post (r : Acc) (borrow : State → Bool) (v : Byte) (s : State) :
    SubPost r borrow v s
      { s.setAcc r (sub8 (s.acc r) v (borrow s)).r with
        cc := s.cc.setNZVC (sub8 (s.acc r) v (borrow s)) }.undefH := by
  refine ⟨Config.undefBit s.draws, s.draws + 1, ?_⟩
  rw [undefH_difference (s.setAcc r _), State.setAcc_draws, sub8_r]

theorem cmp_post (r : Acc) (v : Byte) (s : State) : ComparePost r v s (cmp r v s) :=
  ⟨_, _, undefH_difference s s.cc (s.acc r) v false⟩

/-- Settles O1, by the sum and its flags. -/
theorem addInstructions : Obligations.AddInstructions := by
  refine ⟨RunsOnByte.byteForms ?_ (adc_post .a), RunsOnByte.byteForms ?_ (adc_post .b),
    RunsOnByte.byteForms ?_ (add_post .a), RunsOnByte.byteForms ?_ (add_post .b)⟩
  all_goals exact ⟨fun _ _ => rfl, fun _ _ => rfl, fun _ _ => rfl, fun _ _ => rfl⟩

/-- Settles O2, by the difference and its flags. -/
theorem subtractInstructions : Obligations.SubtractInstructions := by
  refine ⟨RunsOnByte.byteForms (op := sub .a) ?_ (subtract_post .a _),
    RunsOnByte.byteForms (op := sub .b) ?_ (subtract_post .b _),
    RunsOnByte.byteForms (op := sbc .a) ?_ (subtract_post .a _),
    RunsOnByte.byteForms (op := sbc .b) ?_ (subtract_post .b _)⟩
  all_goals exact ⟨fun _ _ => rfl, fun _ _ => rfl, fun _ _ => rfl, fun _ _ => rfl⟩

/-- Settles O3, by the flags of a difference. -/
theorem compareByteInstructions : Obligations.CompareByteInstructions := by
  refine ⟨RunsOnByte.byteForms ?_ (cmp_post .a), RunsOnByte.byteForms ?_ (cmp_post .b)⟩
  all_goals exact ⟨fun _ _ => rfl, fun _ _ => rfl, fun _ _ => rfl, fun _ _ => rfl⟩

/-! ### Logic and loads -/

theorem putAcc_post (r : Acc) (f : Byte → Byte → Byte) (v : Byte) (s : State) :
    AccPost r f v s (putAcc r (f (s.acc r) v) s) := by
  rw [AccPost, putAcc, setNZ0_byte]

theorem bit8_post (r : Acc) (v : Byte) (s : State) : TestPost r (fun x y => x &&& y) v s (bit8 r v s) := by
  rw [TestPost, bit8, setNZ0_byte]

/-- Settles O4: AND, EOR and OR put their result into the accumulator, BIT only tests it. -/
theorem logicInstructions : Obligations.LogicInstructions := by
  refine ⟨RunsOnByte.byteForms (op := and8 .a) ?_ (putAcc_post .a _),
    RunsOnByte.byteForms (op := and8 .b) ?_ (putAcc_post .b _), RunsOnByte.byteForms ?_ (bit8_post .a),
    RunsOnByte.byteForms ?_ (bit8_post .b), RunsOnByte.byteForms (op := eor8 .a) ?_ (putAcc_post .a _),
    RunsOnByte.byteForms (op := eor8 .b) ?_ (putAcc_post .b _),
    RunsOnByte.byteForms (op := or8 .a) ?_ (putAcc_post .a _),
    RunsOnByte.byteForms (op := or8 .b) ?_ (putAcc_post .b _)⟩
  all_goals exact ⟨fun _ _ => rfl, fun _ _ => rfl, fun _ _ => rfl, fun _ _ => rfl⟩

/-- Settles O5: a load puts the operand itself into the accumulator. -/
theorem loadByteInstructions : Obligations.LoadByteInstructions := by
  refine ⟨RunsOnByte.byteForms (op := ld8 .a) ?_ (putAcc_post .a _),
    RunsOnByte.byteForms (op := ld8 .b) ?_ (putAcc_post .b _)⟩
  all_goals exact ⟨fun _ _ => rfl, fun _ _ => rfl, fun _ _ => rfl, fun _ _ => rfl⟩

/-! ### Stores -/

/-- A state that reads as after the write of a byte: the byte is stored at its address, and no other changes. -/
theorem stored_byte {st t : State} {p : Word} {v : Byte} (hread : ∀ q, t.read8 q = (st.write8 p v).read8 q) :
    Stored st t p [v] := by
  have hnone : Stored (st.write8 p v) t p [] := ⟨nofun, fun q _ => hread q⟩
  refine stored_snoc (by decide) (State.write8_kindAt st p v) (fun q => ?_) hnone
  rw [List.length_nil, BitVec.add_zero, State.read8_write8]

theorem st8_post (r : Acc) (ea : Word) (s : State) : StorePost8 r ea s (st8 r ea s) := by
  refine ⟨stored_byte fun _ => rfl, ?_⟩
  rw [st8, setNZ0_byte]
  rfl

/-- Settles O6, by the byte that a store writes. -/
theorem storeByteInstructions : Obligations.StoreByteInstructions := by
  refine ⟨RunsAtAddress.addressForms ?_ (st8_post .a), RunsAtAddress.addressForms ?_ (st8_post .b)⟩
  all_goals exact ⟨fun _ _ => rfl, fun _ _ => rfl, fun _ _ => rfl⟩

end Sys2Proof.Proofs
end

section
/-! Decimal addition (40_alu8_memory_operand.md R152, 41_alu8_single_operand.md R246): DAA corrects the binary sum of two
packed decimal numbers to their packed decimal sum. -/

namespace Sys2Proof.Proofs

open Sys2Proof.Machine Sys2Proof.Claims

-- Elaborated one after another: each waiting theorem takes a thread of its own, and the check bounds their stacks.
set_option Elab.async false

/-- The low digit is corrected where the sum of the low digits has two digits, the high one where the whole sum has
three: H and C of the binary sum stand for the carries that its digits no longer show. -/
theorem daaCorrection_add8 {x y : Byte} {cin : Bool} (hxl : x.toNat % 16 ≤ 9) (hyl : y.toNat % 16 ≤ 9) :
    daaCorrection (add8 x y cin).r (halfCarry x y cin) (add8 x y cin).c =
      (if 10 ≤ x.toNat % 16 + y.toNat % 16 + cin.toNat then 6 else 0) +
        if 100 ≤ 10 * (x.toNat / 16) + x.toNat % 16 + (10 * (y.toNat / 16) + y.toNat % 16) + cin.toNat then 96
        else 0 := by
  have hc := cin.toNat_le
  have hlow : (halfCarry x y cin || decide (9 < (add8 x y cin).r.toNat % 16)) =
      decide (10 ≤ x.toNat % 16 + y.toNat % 16 + cin.toNat) := by
    rw [halfCarry, toNat_add8, ← Bool.decide_or, decide_eq_decide]
    omega
  have hhigh : ((add8 x y cin).c || decide (9 < (add8 x y cin).r.toNat / 16) ||
      (decide (8 < (add8 x y cin).r.toNat / 16) && decide (9 < (add8 x y cin).r.toNat % 16))) =
      decide (100 ≤ 10 * (x.toNat / 16) + x.toNat % 16 + (10 * (y.toNat / 16) + y.toNat % 16) + cin.toNat) := by
    rw [add8_c, toNat_add8, ← Bool.decide_or, ← Bool.decide_and, ← Bool.decide_or, decide_eq_decide]
    omega
  rw [daaCorrection, hlow, hhigh]
  simp only [decide_eq_true_iff]

/-- DAA after an addition of packed decimal numbers: the packed decimal sum modulo 100, and its carry. -/
theorem daa8_add8 {x y : Byte} {cin v : Bool} (hxl : x.toNat % 16 ≤ 9) (hxh : x.toNat / 16 ≤ 9)
    (hyl : y.toNat % 16 ≤ 9) (hyh : y.toNat / 16 ≤ 9) {total : Nat}
    (htotal : total = 10 * (x.toNat / 16) + x.toNat % 16 + (10 * (y.toNat / 16) + y.toNat % 16) + cin.toNat) :
    let o := daa8 (add8 x y cin).r (halfCarry x y cin) (add8 x y cin).c v
    o.r.toNat = 16 * (total % 100 / 10) + total % 10 ∧ o.c = decide (100 ≤ total) := by
  have hc := cin.toNat_le
  dsimp only [daa8]
  rw [daaCorrection_add8 hxl hyl, ← htotal, BitVec.toNat_ofNat, add8_c, toNat_add8, ← Bool.decide_or,
    decide_eq_decide]
  -- The decimal digits of the sum, from the carries out of its two digits.
  have hunits : total % 10 =
      x.toNat % 16 + y.toNat % 16 + cin.toNat - if 10 ≤ x.toNat % 16 + y.toNat % 16 + cin.toNat then 10 else 0 := by
    split <;> omega
  have htens : total / 10 =
      x.toNat / 16 + y.toNat / 16 + if 10 ≤ x.toNat % 16 + y.toNat % 16 + cin.toNat then 1 else 0 := by
    split <;> omega
  have hmod : total % 100 / 10 = total / 10 - if 100 ≤ total then 10 else 0 := by split <;> omega
  rw [hmod, hunits, htens]
  split <;> split <;> omega

/-- Settles O14: DAA finds the sum of ADCA in A, its carries in H and C. -/
theorem decimalAddition : Obligations.DecimalAddition := by
  intro st v hal hah hvl hvh
  exact ⟨_, rfl, _, rfl, daa8_add8 (v := (adc .a v st).cc.v) hal hah hvl hvh rfl⟩

end Sys2Proof.Proofs
end

section
/-! Compares and the branches after them (40_alu8_memory_operand.md R160, R161, 44_branches.md R350, R351, R386): the
flags of a difference decide the order of the compared values, unsigned and signed. -/

namespace Sys2Proof.Proofs

open Sys2Proof.Machine Sys2Proof.Claims

-- Elaborated one after another: each waiting theorem takes a thread of its own, and the check bounds their stacks.
set_option Elab.async false

/-! ### Branches -/

/-- A short branch whose condition is known (R350). -/
theorem branch_post {k : Cond} {taken : Bool} {t : State} (h : k.holds t.cc = taken) (off : Byte) :
    BranchPost taken off.toInt t (branch k (t.shortTarget off) t) := by
  rw [BranchPost, branch, h, State.shortTarget, add_sext8_eq_displaced]
  cases taken <;> rfl

/-- The flags say how `ux` and `uy` compare as natural numbers, `sx` and `sy` as integers: C and Z the unsigned order,
N and V the signed one (R386). -/
structure Orders (cc : CC) (ux uy : Nat) (sx sy : Int) : Prop where
  carry : cc.c = decide (ux < uy)
  zero : cc.z = decide (ux = uy)
  sign : (cc.n ^^ cc.v) = decide (sx < sy)
  equal_iff : ux = uy ↔ sx = sy

/-- Flags that order two values decide the ten branches. -/
theorem Orders.branchesDecide {t : State} {ux uy : Nat} {sx sy : Int} (h : Orders t.cc ux uy sx sy) :
    BranchesDecide t ux uy sx sy := by
  obtain ⟨hc, hz, hs, heq⟩ := h
  have hhigher : Cond.holds .higher t.cc = decide (ux > uy) := by
    rw [Cond.holds, hc, hz, ← decide_not, ← decide_not, ← Bool.decide_and, decide_eq_decide]
    omega
  have hcarryClear : Cond.holds .carryClear t.cc = decide (ux ≥ uy) := by
    rw [Cond.holds, hc, ← decide_not, decide_eq_decide]
    omega
  have hlowerOrSame : Cond.holds .lowerOrSame t.cc = decide (ux ≤ uy) := by
    rw [Cond.holds, hc, hz, ← Bool.decide_or, decide_eq_decide]
    omega
  have hnotEqual : Cond.holds .notEqual t.cc = decide (ux ≠ uy) := by
    rw [Cond.holds, hz, ← decide_not]
  have hgreater : Cond.holds .greater t.cc = decide (sx > sy) := by
    rw [Cond.holds, hz, hs, ← decide_not, ← decide_not, ← Bool.decide_and, decide_eq_decide]
    omega
  have hgreaterOrEqual : Cond.holds .greaterOrEqual t.cc = decide (sx ≥ sy) := by
    rw [Cond.holds, hs, ← decide_not, decide_eq_decide]
    omega
  have hlessOrEqual : Cond.holds .lessOrEqual t.cc = decide (sx ≤ sy) := by
    rw [Cond.holds, hz, hs, ← Bool.decide_or, decide_eq_decide]
    omega
  exact fun off => ⟨⟨_, rfl, branch_post hhigher off⟩, ⟨_, rfl, branch_post hcarryClear off⟩,
    ⟨_, rfl, branch_post (k := .equal) hz off⟩, ⟨_, rfl, branch_post hlowerOrSame off⟩, ⟨_, rfl, branch_post (k := .carrySet) hc off⟩,
    ⟨_, rfl, branch_post hnotEqual off⟩, ⟨_, rfl, branch_post hgreater off⟩,
    ⟨_, rfl, branch_post hgreaterOrEqual off⟩, ⟨_, rfl, branch_post hlessOrEqual off⟩,
    ⟨_, rfl, branch_post (k := .less) hs off⟩⟩

/-! ### Compares -/

/-- The flags of a difference of bytes order the bytes. -/
theorem orders_differenceFlags8 (cc : CC) (x y : Byte) (h : Bool) :
    Orders (differenceFlags8 cc x y false h) x.toNat y.toNat x.toInt y.toInt := by
  have hx := x.isLt
  have hy := y.isLt
  have hb : ((false.toNat : Nat) : Int) = 0 := rfl
  refine ⟨?_, ?_, ?_, ?_⟩
  · simp only [differenceFlags8, hb, decide_eq_decide]
    omega
  · simp only [differenceFlags8, hb, decide_eq_decide]
    omega
  · dsimp only [differenceFlags8, overflows8]
    rw [hb, toInt_byte, toInt_byte, Bool.eq_iff_iff, Bool.xor_iff_ne, ne_eq, decide_eq_decide, decide_eq_true_iff]
    split <;> split <;> omega
  · rw [toInt_byte, toInt_byte]
    split <;> split <;> omega

/-- The flags of a difference of words order the words. -/
theorem orders_differenceFlags16 (cc : CC) (x y : Word) :
    Orders (differenceFlags16 cc x y) x.toNat y.toNat x.toInt y.toInt := by
  have hx := x.isLt
  have hy := y.isLt
  refine ⟨rfl, ?_, ?_, ?_⟩
  · rw [differenceFlags16, wordFlags, decide_eq_decide]
    omega
  · dsimp only [differenceFlags16, wordFlags, overflows16]
    rw [toInt_word, toInt_word, Bool.eq_iff_iff, Bool.xor_iff_ne, ne_eq, decide_eq_decide, decide_eq_true_iff]
    split <;> split <;> omega
  · rw [toInt_word, toInt_word]
    split <;> split <;> omega

/-- After a compare of an accumulator the branches go by the order of the bytes. -/
theorem branchesDecide_cmp (r : Acc) (v : Byte) (s : State) :
    BranchesDecide (cmp r v s) (s.acc r).toNat v.toNat (s.acc r).toInt v.toInt := by
  obtain ⟨h, d, hcmp⟩ := cmp_post r v s
  rw [hcmp]
  exact (orders_differenceFlags8 s.cc (s.acc r) v h).branchesDecide

/-- After a compare of a 16-bit register the branches go by the order of the words. -/
theorem branchesDecide_cmp16 (r : Reg16) (v : Word) (s : State) :
    BranchesDecide (cmp16 r v s) (s.reg16 r).toNat v.toNat (s.reg16 r).toInt v.toInt := by
  apply Orders.branchesDecide
  rw [cmp16, setNZVC_sub16]
  exact orders_differenceFlags16 s.cc (s.reg16 r) v

/-- Settles O29, by the order that the flags of a difference hold. -/
theorem compareThenBranch : Obligations.CompareThenBranch :=
  fun st => ⟨fun m => ⟨⟨_, rfl, branchesDecide_cmp .a m st⟩, ⟨_, rfl, branchesDecide_cmp .b m st⟩⟩,
    fun w => ⟨⟨_, rfl, branchesDecide_cmp16 .d w st⟩, ⟨_, rfl, branchesDecide_cmp16 .x w st⟩,
      ⟨_, rfl, branchesDecide_cmp16 .y w st⟩, ⟨_, rfl, branchesDecide_cmp16 .u w st⟩,
      ⟨_, rfl, branchesDecide_cmp16 .s w st⟩⟩⟩

end Sys2Proof.Proofs
end

section
/-! The bytes that an instruction stores (20_memory.md R62, R80, R81): its memory is what the write events of its access
leave (`Laws.replays_exec`), and each kind of access writes to a range of its own. -/

namespace Sys2Proof.Proofs

open Sys2Proof.Machine Sys2Proof.Claims

-- Elaborated one after another: each waiting theorem takes a thread of its own, and the check bounds their stacks.
set_option Elab.async false

/-! ### The frame of each kind of write -/

theorem unchangedOutside_write8 (st : State) (p : Word) (v : Byte) : UnchangedOutside st (st.write8 p v) p 1 := by
  obtain ⟨-, hframe⟩ := stored_byte (st := st) (p := p) (v := v) fun _ => rfl
  exact hframe

/-- A word is written at an address and the next one, modulo 2^16 (R66). -/
theorem unchangedOutside_write16 (st : State) (p v : Word) : UnchangedOutside st (st.write16 p v) p 2 := by
  intro q hq
  have hoff (k : Word) (hk : k.toNat < 2) : p + k ≠ q := by
    rintro rfl
    rw [add_sub_cancel_left] at hq
    omega
  have hhi : p ≠ q := fun h => hoff 0#16 (by decide) ((BitVec.add_zero p).trans h)
  have hlo : p + 1#16 ≠ q := hoff 1#16 (by decide)
  simp only [State.read8_write16, hlo, hhi, false_and, if_false]

/-- A push of a word writes the two bytes below the stack pointer (R80). -/
theorem unchangedOutside_push16 (st : State) (k : Stack) (v : Word) :
    UnchangedOutside st (st.push16 k v) (st.sp k - 2#16) 2 := by
  obtain ⟨-, hframe⟩ := stored_foldl_push8 k [loByte v, hiByte v] st (by simp)
  exact hframe

/-- A push of registers writes the bytes that its postbyte selects (R81, R121). -/
theorem unchangedOutside_pushRegs (st : State) (k : Stack) (pb : Byte) :
    UnchangedOutside st (st.pushRegs k pb) (st.sp k - BitVec.ofNat 16 (bytesBelow pb 8)) (bytesBelow pb 8) := by
  obtain ⟨⟨-, hframe⟩, -⟩ := pushRegs_stores st k pb
  rwa [pushedBytes_eq_bytesUpTo, length_bytesUpTo] at hframe

/-- How many bytes the stacking of an event writes (R440, R442). -/
def frameLength (entire : Bool) : Nat := if entire then 12 else 3

/-- The stacking of an event writes its frame below S. -/
theorem unchangedOutside_stacked (st : State) (entire : Bool) :
    UnchangedOutside st (st.stacked entire) (st.s - BitVec.ofNat 16 (frameLength entire)) (frameLength entire) := by
  have hpush (pb : Byte) (n : Nat) (hn : bytesBelow pb 8 = n) (cc : CC) :
      UnchangedOutside st ({ st with cc := cc }.pushRegs .s pb) (st.s - BitVec.ofNat 16 n) n :=
    hn ▸ unchangedOutside_pushRegs { st with cc := cc } .s pb
  cases entire with
  | true =>
    rw [State.stacked, frameLength, if_pos rfl, if_pos rfl, State.stackEntire]
    exact hpush 0xFF#8 12 rfl _
  | false =>
    rw [State.stacked, frameLength, if_neg Bool.false_ne_true, if_neg Bool.false_ne_true, State.stackSubset]
    exact hpush 0x81#8 3 rfl _

theorem surroundings_stacked (st : State) (entire : Bool) : (st.stacked entire).surroundings = st.surroundings := by
  cases entire with
  | true => rw [State.stacked, if_pos rfl, State.surroundings_stackEntire]
  | false => rw [State.stacked, if_neg Bool.false_ne_true, State.surroundings_stackSubset]

/-! ### The frame of each kind of access -/

/-- The first address and the number of the bytes that an access writes. -/
def writtenRange (st : State) : Machine.Access → Word × Nat
  | .writeByte o _ | .readModifyWrite o _ => (st.operandEA o, 1)
  | .writeWord o _ => (st.operandEA o, 2)
  | .push k pb => (st.sp k - BitVec.ofNat 16 (bytesBelow pb 8), bytesBelow pb 8)
  | .call => (st.s - 2#16, 2)
  | .callAt o => ((st.afterOperand o).s - 2#16, 2)
  | .softwareInterrupt ev => (st.s - BitVec.ofNat 16 (frameLength ev.entire), frameLength ev.entire)
  | .stackAndWait _ => (st.s - 12#16, 12)
  | .ownBytes | .operandWord | .jumpExtended | .address _ | .readByte _ | .readWord _ | .pull _ _ | .ret
  | .interruptReturn | .synchronize => (0x0000#16, 0)

/-- The range of an instruction is that of its access. -/
theorem storedRange_eq_writtenRange (i : Instr) (st : State) : storedRange i st = writtenRange st (accessOf i) := by
  cases i <;> rfl

theorem surroundings_afterOperand (st : State) (o : Operand) :
    (st.afterOperand o).surroundings = st.surroundings := by
  cases o with
  | dir _ | ext _ => rfl
  | idx m => exact st.surroundings_afterIndex m

/-- From `st` to `s` the bus is the same, memory becomes what the write events of the access leave, and no byte outside
the range of the access changes. -/
def FramesAccess (st s : State) (a : Machine.Access) : Prop :=
  s.surroundings = st.surroundings ∧
    s.mem = Laws.replay st.platform st.mem (eventsOf (st.accessGroups a).flatten) ∧
    UnchangedOutside st s (writtenRange st a).1 (writtenRange st a).2

/-- An access that writes nothing leaves the state itself. -/
theorem framesAccess_self {st : State} {a : Machine.Access}
    (h : Laws.replay st.platform st.mem (eventsOf (st.accessGroups a).flatten) = st.mem) : FramesAccess st st a :=
  ⟨rfl, h.symm, fun _ _ => rfl⟩

/-- The write events of the pulls leave memory as it is. -/
theorem replay_apart_pullRun (st : State) (n : Nat) (sp : Word) :
    Laws.replay st.platform st.mem (eventsOf (apart (st.pullRun .stackByte n sp)).flatten) = st.mem := by
  rw [Laws.flatten_apart, Laws.replay_pullRun]

/-- JSR pushes the return address after any adjustment of its operand (R405). -/
theorem framesAccess_callAt (st : State) (o : Operand) :
    FramesAccess st ((st.afterOperand o).push16 .s st.pc) (.callAt o) := by
  refine ⟨(State.surroundings_push16 _ _ _).trans (surroundings_afterOperand st o), ?_, fun q hq => ?_⟩
  · rw [Laws.replay_callAt, State.push16_mem, Laws.afterOperand_mem, Laws.afterOperand_platform]
    rfl
  · exact (unchangedOutside_push16 (st.afterOperand o) .s st.pc q hq).trans (Laws.read8_afterOperand st o q)

/-- After the stacking of a software interrupt its vector is only read (R407 to R409). -/
theorem framesAccess_softwareInterrupt (st : State) (ev : Event) :
    FramesAccess st (st.stacked ev.entire) (.softwareInterrupt ev) := by
  refine ⟨surroundings_stacked st _, ?_, unchangedOutside_stacked st _⟩
  rw [Laws.mem_stacked, State.accessGroups, List.flatten_append, Laws.flatten_apart, Laws.eventsOf_append,
    Laws.replay_append]
  rfl

/-- CWAI stacks the registers after the AND into CC (R403). -/
theorem framesAccess_stackAndWait (st : State) (imm : Byte) :
    FramesAccess st ((andCC imm st).stacked true) (.stackAndWait imm) := by
  refine ⟨surroundings_stacked (andCC imm st) true, ?_, fun q hq => unchangedOutside_stacked (andCC imm st) true q hq⟩
  rw [Laws.mem_stacked, State.accessGroups, Laws.flatten_apart]
  rfl

/-- Every access has its frame. -/
theorem exists_framesAccess (st : State) (a : Machine.Access) : ∃ s, FramesAccess st s a := by
  cases a with
  | ownBytes | operandWord | jumpExtended | synchronize => exact ⟨st, framesAccess_self rfl⟩
  | address m => exact ⟨st, framesAccess_self (Laws.replay_address _ _ st m)⟩
  | readByte o => exact ⟨st, framesAccess_self (Laws.replay_readByte _ _ st o)⟩
  | readWord o => exact ⟨st, framesAccess_self (Laws.replay_readWord _ _ st o)⟩
  | pull | ret | interruptReturn => exact ⟨st, framesAccess_self (replay_apart_pullRun st _ _)⟩
  | writeByte o r =>
    exact ⟨st.write8 _ _, rfl, (Laws.replay_writeByte _ _ st o r).symm, unchangedOutside_write8 st _ _⟩
  | readModifyWrite o op =>
    exact ⟨st.write8 _ _, rfl, (Laws.replay_readModifyWrite _ _ st o op).symm, unchangedOutside_write8 st _ _⟩
  | writeWord o r =>
    exact ⟨st.write16 _ _, rfl, (Laws.replay_writeWord _ _ st o r).symm, unchangedOutside_write16 st _ _⟩
  | push k pb =>
    refine ⟨st.pushRegs k pb, st.surroundings_pushRegs k pb, ?_, unchangedOutside_pushRegs st k pb⟩
    rw [State.accessGroups, Laws.flatten_apart, Laws.mem_pushRegs .stackByte]
  | call =>
    exact ⟨st.push16 .s st.pc, st.surroundings_push16 .s st.pc, rfl, unchangedOutside_push16 st .s st.pc⟩
  | callAt o => exact ⟨_, framesAccess_callAt st o⟩
  | softwareInterrupt ev => exact ⟨_, framesAccess_softwareInterrupt st ev⟩
  | stackAndWait imm => exact ⟨_, framesAccess_stackAndWait st imm⟩

/-- Memory that the write events of an access leave is unchanged outside the range of the access. -/
theorem unchangedOutside_of_replays {st t : State} {a : Machine.Access} (ht : t.surroundings = st.surroundings)
    (h : Laws.Replays st t a) : UnchangedOutside st t (writtenRange st a).1 (writtenRange st a).2 := by
  obtain ⟨s, hs, hmem, hframe⟩ := exists_framesAccess st a
  obtain ⟨hplatform, htime, -⟩ := State.surroundings_eq_iff.mp (ht.trans hs.symm)
  exact fun q hq => (State.read8_congr (h.trans hmem.symm) hplatform htime q).trans (hframe q hq)

/-- Settles O54: an instruction writes the range of its access. -/
theorem instructionsWriteOnlyTheirBytes : Obligations.InstructionsWriteOnlyTheirBytes := by
  intro i st t h
  rw [storedRange_eq_writtenRange]
  exact unchangedOutside_of_replays (surroundings_exec h) (Laws.replays_exec h)

end Sys2Proof.Proofs
end

section
/-! The flag functions of the single-operand instructions (41_alu8_single_operand.md R202 to R246) in plain arithmetic:
the result as a number, then N, Z, V and C from it. -/

namespace Sys2Proof.Proofs

open Sys2Proof.Machine Sys2Proof.Claims

-- Elaborated one after another: each waiting theorem takes a thread of its own, and the check bounds their stacks.
set_option Elab.async false

/-! ### Flags from the result as a number -/

/-- Writing N, Z, V and C, where N and Z are those of the result as a number (R9). -/
theorem setNZVC_of_toNat (cc : CC) {o : Alu 8} {n z v c : Bool} (hnz : o.n = isNeg o.r ∧ o.z = isZero o.r)
    (hn : decide (128 ≤ o.r.toNat) = n) (hz : decide (o.r.toNat = 0) = z) (hv : o.v = v) (hc : o.c = c) :
    cc.setNZVC o = { cc with n := n, z := z, v := v, c := c } := by
  obtain ⟨hneg, hzero⟩ := hnz
  rw [CC.setNZVC, hneg, hzero, isNeg_byte, isZero_eq, hn, hz, hv, hc]

/-- A bit by the number that the bits hold. -/
theorem getLsbD_eq_decide {w : Nat} (x : BitVec w) (k : Nat) : x.getLsbD k = decide (x.toNat / 2 ^ k % 2 = 1) :=
  Nat.testBit_eq_decide_div_mod_eq

/-! ### NEG and COM -/

theorem neg8_r (m : Byte) : (neg8 m).r = BitVec.ofNat 8 (256 - m.toNat) := by
  have hm := m.isLt
  apply BitVec.eq_of_toNat_eq
  rw [neg8, sub8, BitVec.toNat_ofNat, BitVec.toNat_ofNat, BitVec.toNat_ofNat, Bool.toNat_false]
  omega

/-- NEG overflows at $80 alone, and borrows but from zero (R202). -/
theorem setNZVC_neg8 (cc : CC) (m : Byte) :
    cc.setNZVC (neg8 m) =
      { cc with
        n := decide (1 ≤ m.toNat ∧ m.toNat ≤ 128)
        z := decide (m.toNat = 0)
        v := decide (m.toNat = 128)
        c := decide (m.toNat ≠ 0) } := by
  have hm := m.isLt
  have hr : (neg8 m).r.toNat = (256 - m.toNat) % 256 := by rw [neg8_r, BitVec.toNat_ofNat]
  have hv : (neg8 m).v = overflows8 (0 - m.toInt - 0) := sub8_v 0x00#8 m false
  refine setNZVC_of_toNat cc ⟨rfl, rfl⟩ ?_ ?_ ?_ ?_
  · rw [hr, decide_eq_decide]
    omega
  · rw [hr, decide_eq_decide]
    omega
  · rw [hv, overflows8, toInt_byte, decide_eq_decide]
    split <;> omega
  · exact decide_eq_decide.mpr (by rw [BitVec.toNat_ofNat, Bool.toNat_false]; omega)

theorem toNat_com8 (m : Byte) : (com8 m).r.toNat = 255 - m.toNat := BitVec.toNat_not

theorem com8_r (m : Byte) : (com8 m).r = BitVec.ofNat 8 (255 - m.toNat) := by
  rw [← toNat_com8, BitVec.ofNat_toNat, BitVec.setWidth_eq]

theorem setNZVC_com8 (cc : CC) (m : Byte) :
    cc.setNZVC (com8 m) =
      { cc with n := decide (m.toNat < 128), z := decide (m.toNat = 255), v := false, c := true } := by
  have hm := m.isLt
  refine setNZVC_of_toNat cc ⟨rfl, rfl⟩ ?_ ?_ rfl rfl
  · rw [toNat_com8, decide_eq_decide]
    omega
  · rw [toNat_com8, decide_eq_decide]
    omega

/-! ### Right shifts -/

/-- The bit that enters on the left weighs 128, the others are halved. -/
theorem toNat_shiftRight8 (top : Bool) (m : Byte) : (shiftRight8 top m).toNat = 128 * top.toNat + m.toNat / 2 := by
  have hm := m.isLt
  have htail : (m.extractLsb' 1 7).toNat = m.toNat / 2 := by
    rw [BitVec.extractLsb'_toNat, Nat.shiftRight_eq_div_pow]
    omega
  rw [shiftRight8, BitVec.toNat_append, ← Nat.shiftLeft_add_eq_or_of_lt (BitVec.isLt _), Nat.shiftLeft_eq,
    BitVec.toNat_ofBool, htail, Nat.mul_comm]

theorem shiftRight8_eq_ofNat (top : Bool) (m : Byte) :
    shiftRight8 top m = BitVec.ofNat 8 (128 * top.toNat + m.toNat / 2) := by
  rw [← toNat_shiftRight8, BitVec.ofNat_toNat, BitVec.setWidth_eq]

/-- With its own sign entering, a byte is halved as a signed number, rounding down (R218). -/
theorem shiftRight8_msb (m : Byte) : shiftRight8 m.msb m = BitVec.ofInt 8 (m.toInt / 2) := by
  have hm := m.isLt
  apply BitVec.eq_of_toNat_eq
  rw [toNat_shiftRight8, BitVec.toNat_ofInt, toInt_byte, BitVec.msb_eq_decide]
  by_cases h : m.toNat < 128
  · have hsign : ¬2 ^ (8 - 1) ≤ m.toNat := by omega
    rw [if_pos h, decide_eq_false hsign, Bool.toNat_false]
    omega
  · have hsign : 2 ^ (8 - 1) ≤ m.toNat := by omega
    rw [if_neg h, decide_eq_true hsign, Bool.toNat_true]
    omega

/-- The bit that enters is N, the bit shifted out is C, V is the one given (R210, R214, R218). -/
theorem setNZVC_right8 (cc : CC) (top : Bool) (m : Byte) :
    cc.setNZVC (right8 top m cc.v) =
      { cc with n := top, z := !top && decide (m.toNat < 2), c := decide (m.toNat % 2 = 1) } := by
  have hm := m.isLt
  have hr : (right8 top m cc.v).r.toNat = 128 * top.toNat + m.toNat / 2 := toNat_shiftRight8 top m
  refine setNZVC_of_toNat cc ⟨rfl, rfl⟩ ?_ ?_ rfl ?_
  · rw [hr]
    cases top with
    | false => exact decide_eq_false (by rw [Bool.toNat_false]; omega)
    | true => exact decide_eq_true (by rw [Bool.toNat_true]; omega)
  · rw [hr]
    cases top with
    | false => exact decide_eq_decide.mpr (by rw [Bool.toNat_false]; omega)
    | true => exact decide_eq_false (by rw [Bool.toNat_true]; omega)
  · rw [← Nat.div_one m.toNat]
    exact getLsbD_eq_decide m 0

/-- The sign bit entering is the sign, and a byte below 2 has none (R218). -/
theorem setNZVC_right8_msb (cc : CC) (m : Byte) :
    cc.setNZVC (right8 m.msb m cc.v) =
      { cc with n := decide (m.toInt < 0), z := decide (m.toNat < 2), c := decide (m.toNat % 2 = 1) } := by
  have hz : (!m.msb && decide (m.toNat < 2)) = decide (m.toNat < 2) := by
    rw [BitVec.msb_eq_decide, ← decide_not, ← Bool.decide_and, decide_eq_decide]
    omega
  rw [setNZVC_right8, hz, BitVec.msb_eq_toInt]

/-! ### Left shifts -/

/-- The low seven bits are doubled, the bit that enters on the right is added. -/
theorem toNat_shiftLeft8 (m : Byte) (bottom : Bool) :
    (shiftLeft8 m bottom).toNat = 2 * (m.toNat % 128) + bottom.toNat := by
  have htail : (m.extractLsb' 0 7).toNat = m.toNat % 128 := by
    rw [BitVec.extractLsb'_toNat, Nat.shiftRight_zero]
  rw [shiftLeft8, BitVec.toNat_append, ← Nat.shiftLeft_add_eq_or_of_lt (BitVec.isLt _), Nat.shiftLeft_eq,
    BitVec.toNat_ofBool, htail, Nat.mul_comm, Nat.pow_one]

theorem shiftLeft8_eq_ofNat (m : Byte) (bottom : Bool) :
    shiftLeft8 m bottom = BitVec.ofNat 8 (2 * m.toNat + bottom.toNat) := by
  have hb := bottom.toNat_le
  apply BitVec.eq_of_toNat_eq
  rw [toNat_shiftLeft8, BitVec.toNat_ofNat]
  omega

/-- Bits 7 and 6 differ exactly where doubling the signed byte leaves the range (R222, R226). -/
theorem left8_v (m : Byte) (bottom : Bool) : (left8 m bottom).v = overflows8 (2 * m.toInt) := by
  have hm := m.isLt
  have hv : (left8 m bottom).v = (m.getLsbD 7 != m.getLsbD 6) := rfl
  rw [hv, getLsbD_eq_decide, getLsbD_eq_decide, overflows8, toInt_byte, Bool.eq_iff_iff, bne_iff_ne, ne_eq,
    decide_eq_decide, decide_eq_true_iff]
  split <;> omega

/-- Bit 6 becomes N, bit 7 is C (R222, R226). -/
theorem setNZVC_left8 (cc : CC) (m : Byte) (bottom : Bool) :
    cc.setNZVC (left8 m bottom) =
      { cc with
        n := decide (64 ≤ m.toNat % 128)
        z := !bottom && decide (m.toNat % 128 = 0)
        v := overflows8 (2 * m.toInt)
        c := decide (128 ≤ m.toNat) } := by
  have hb := bottom.toNat_le
  have hr : (left8 m bottom).r.toNat = 2 * (m.toNat % 128) + bottom.toNat := toNat_shiftLeft8 m bottom
  refine setNZVC_of_toNat cc ⟨rfl, rfl⟩ ?_ ?_ (left8_v m bottom) (BitVec.msb_eq_decide m)
  · rw [hr, decide_eq_decide]
    omega
  · rw [hr]
    cases bottom with
    | false => exact decide_eq_decide.mpr (by rw [Bool.toNat_false]; omega)
    | true => exact decide_eq_false (by rw [Bool.toNat_true]; omega)

/-! ### INC and DEC -/

theorem inc_eq_ofNat (m : Byte) : m + 1#8 = BitVec.ofNat 8 (m.toNat + 1) := by
  rw [BitVec.ofNat_add, BitVec.ofNat_toNat, BitVec.setWidth_eq]

/-- INC overflows at $7F alone; C stays (R234). -/
theorem setNZVC_inc8 (cc : CC) (m : Byte) :
    cc.setNZVC (inc8 m cc.c) =
      { cc with
        n := decide (127 ≤ m.toNat ∧ m.toNat < 255)
        z := decide (m.toNat = 255)
        v := overflows8 (m.toInt + 1) } := by
  have hm := m.isLt
  have hr : (inc8 m cc.c).r.toNat = (m.toNat + 1) % 256 := BitVec.toNat_add m 1#8
  have hv : (inc8 m cc.c).v = (m == 0x7F#8) := rfl
  refine setNZVC_of_toNat cc ⟨rfl, rfl⟩ ?_ ?_ ?_ rfl
  · rw [hr, decide_eq_decide]
    omega
  · rw [hr, decide_eq_decide]
    omega
  · rw [hv, overflows8, toInt_byte, Bool.eq_iff_iff, beq_iff_eq, decide_eq_true_iff, ← BitVec.toNat_inj,
      BitVec.toNat_ofNat]
    split <;> omega

theorem dec_eq_ofNat (m : Byte) : m - 1#8 = BitVec.ofNat 8 (m.toNat + 255) := by
  apply BitVec.eq_of_toNat_eq
  rw [BitVec.toNat_sub, BitVec.toNat_ofNat, BitVec.toNat_ofNat]
  omega

/-- DEC overflows at $80 alone; C stays (R230). -/
theorem setNZVC_dec8 (cc : CC) (m : Byte) :
    cc.setNZVC (dec8 m cc.c) =
      { cc with
        n := decide (m.toNat = 0 ∨ 129 ≤ m.toNat)
        z := decide (m.toNat = 1)
        v := overflows8 (m.toInt - 1) } := by
  have hm := m.isLt
  have hr : (dec8 m cc.c).r.toNat = (m.toNat + 255) % 256 := by
    rw [dec8, dec_eq_ofNat, BitVec.toNat_ofNat]
  have hv : (dec8 m cc.c).v = (m == 0x80#8) := rfl
  refine setNZVC_of_toNat cc ⟨rfl, rfl⟩ ?_ ?_ ?_ rfl
  · rw [hr, decide_eq_decide]
    omega
  · rw [hr, decide_eq_decide]
    omega
  · rw [hv, overflows8, toInt_byte, Bool.eq_iff_iff, beq_iff_eq, decide_eq_true_iff, ← BitVec.toNat_inj,
      BitVec.toNat_ofNat]
    split <;> omega

/-! ### DAA -/

theorem daaCorrection_eq (a : Byte) (h c : Bool) :
    daaCorrection a h c =
      (if h = true ∨ 9 < a.toNat % 16 then 6 else 0) +
        if c = true ∨ 9 < a.toNat / 16 ∨ (8 < a.toNat / 16 ∧ 9 < a.toNat % 16) then 0x60 else 0 := by
  simp only [daaCorrection, Bool.or_eq_true, Bool.and_eq_true, decide_eq_true_eq, or_assoc]

/-- The flags of DAA, with the given V (R246). -/
theorem setNZVC_daa8 (cc : CC) (a : Byte) (h v : Bool) :
    cc.setNZVC (daa8 a h cc.c v) =
      { cc with
        n := decide (128 ≤ (a.toNat + daaCorrection a h cc.c) % 256)
        z := decide ((a.toNat + daaCorrection a h cc.c) % 256 = 0)
        v := v
        c := cc.c || decide (256 ≤ a.toNat + daaCorrection a h cc.c) } := by
  have hr : (daa8 a h cc.c v).r.toNat = (a.toNat + daaCorrection a h cc.c) % 256 := BitVec.toNat_ofNat _ _
  refine setNZVC_of_toNat cc ⟨rfl, rfl⟩ ?_ ?_ rfl rfl
  · rw [hr]
  · rw [hr]

end Sys2Proof.Proofs
end

section
/-! The 8-bit single-operand instructions, DAA and MUL (41_alu8_single_operand.md R200 to R247): what an operation does
in its memory and accumulator forms, and that each row of the table runs its operation. -/

namespace Sys2Proof.Proofs

open Sys2Proof.Machine Sys2Proof.Claims

-- Elaborated one after another: each waiting theorem takes a thread of its own, and the check bounds their stacks.
set_option Elab.async false

/-! ### The rows of an operation -/

/-- The five instructions run the operation: three on memory (R200), one on each accumulator (R201). -/
structure RunsUnary (op : Unary) (dir : Byte → Instr) (idx : Idx → Instr) (ext : Word → Instr) (onA onB : Instr) :
    Prop where
  memory : RunsAtAddress (modifyMem op) dir idx ext
  onA : ∀ st, exec onA st = .next (modifyAcc op .a st)
  onB : ∀ st, exec onB st = .next (modifyAcc op .b st)

/-- The operation has that result and those flags; H becomes some bit where it is free, and stays elsewhere. -/
structure Computes (op : Unary) (res : Byte → CC → Byte) (flags : Byte → CC → CC) (freeH : Bool) : Prop where
  result : ∀ m cc, op.result m cc = res m cc
  flags : ∀ m s, ∃ (h : Bool) (d : Nat),
    op.flags m s = { s with cc := { flags m s.cc with h := h }, draws := d } ∧
      (freeH = false → h = s.cc.h ∧ d = s.draws)

section Forms

variable {op : Unary} {res : Byte → CC → Byte} {flags : Byte → CC → CC} {freeH : Bool}

/-- An operation that writes N, Z, V and C leaves H. -/
theorem computes_writeNZVC {f : Byte → CC → Alu 8} (hop : op.flags = writeNZVC f)
    (hresult : ∀ m cc, op.result m cc = res m cc) (hflags : ∀ m cc, cc.setNZVC (f m cc) = flags m cc) :
    Computes op res flags false := by
  refine ⟨hresult, fun m s => ⟨s.cc.h, s.draws, ?_, fun _ => ⟨rfl, rfl⟩⟩⟩
  rw [hop, ← hflags]
  rfl

/-- An operation that writes N, Z, V and C and then draws a free bit for H (R14, D6). -/
theorem computes_undefH {f : Byte → CC → Alu 8} (hop : ∀ m s, op.flags m s = (writeNZVC f m s).undefH)
    (hresult : ∀ m cc, op.result m cc = res m cc) (hflags : ∀ m cc, cc.setNZVC (f m cc) = flags m cc) :
    Computes op res flags true := by
  refine ⟨hresult, fun m s => ⟨Config.undefBit s.draws, s.draws + 1, ?_, nofun⟩⟩
  rw [hop, ← hflags]
  rfl

/-- The memory form stores the result at the effective address and writes the flags (R200). -/
theorem Computes.modifyMem_post (h : Computes op res flags freeH) (ea : Word) (s : State) :
    Stored s (modifyMem op ea s) ea [res (s.read8 ea) s.cc] ∧
      ∃ (hbit : Bool) (d : Nat),
        modifyMem op ea s =
          { s with
            mem := (modifyMem op ea s).mem
            cc := { flags (s.read8 ea) s.cc with h := hbit }
            draws := d } ∧
          (freeH = false → hbit = s.cc.h ∧ d = s.draws) := by
  obtain ⟨hbit, d, hflags, hkept⟩ := h.flags (s.read8 ea) (s.write8 ea (res (s.read8 ea) s.cc))
  rw [modifyMem, h.result, hflags]
  exact ⟨stored_byte fun _ => rfl, hbit, d, rfl, hkept⟩

/-- The accumulator form puts the result into the accumulator and writes the flags (R201). -/
theorem Computes.modifyAcc_post (h : Computes op res flags freeH) (r : Acc) (s : State) :
    ∃ (hbit : Bool) (d : Nat),
      modifyAcc op r s =
        { s.setAcc r (res (s.acc r) s.cc) with
          cc := { flags (s.acc r) s.cc with h := hbit }
          draws := d } ∧
        (freeH = false → hbit = s.cc.h ∧ d = s.draws) := by
  obtain ⟨hbit, d, hflags, hkept⟩ := h.flags (s.acc r) (s.setAcc r (res (s.acc r) s.cc))
  rw [State.setAcc_cc, State.setAcc_draws] at hkept
  rw [State.setAcc_cc] at hflags
  rw [modifyAcc, h.result]
  exact ⟨hbit, d, hflags, hkept⟩

/-- What an operation computes, its rows do in every form. -/
theorem RunsUnary.unaryForms {dir : Byte → Instr} {idx : Idx → Instr} {ext : Word → Instr} {onA onB : Instr}
    (hruns : RunsUnary op dir idx ext onA onB) (h : Computes op res flags freeH) :
    UnaryForms dir idx ext onA onB res flags freeH := by
  refine ⟨hruns.memory.addressForms h.modifyMem_post, fun st r => ?_⟩
  cases r with
  | a => exact ⟨_, hruns.onA st, h.modifyAcc_post .a st⟩
  | b => exact ⟨_, hruns.onB st, h.modifyAcc_post .b st⟩

end Forms

/-! ### The operations -/

/-- Settles O7, by the results and flags of NEG and COM. -/
theorem negateComplement : Obligations.NegateComplement := by
  refine ⟨RunsUnary.unaryForms (op := negOp) ?_
      (computes_undefH (fun _ _ => rfl) (fun m _ => neg8_r m) fun m cc => setNZVC_neg8 cc m),
    RunsUnary.unaryForms (op := comOp) ?_
      (computes_writeNZVC rfl (fun m _ => com8_r m) fun m cc => setNZVC_com8 cc m)⟩
  all_goals exact ⟨⟨fun _ _ => rfl, fun _ _ => rfl, fun _ _ => rfl⟩, fun _ => rfl, fun _ => rfl⟩

theorem computes_lsrOp :
    Computes lsrOp (fun m _ => BitVec.ofNat 8 (m.toNat / 2))
      (fun m cc => { cc with n := false, z := decide (m.toNat < 2), c := decide (m.toNat % 2 = 1) }) false := by
  refine computes_writeNZVC rfl (fun m _ => ?_) fun m cc => setNZVC_right8 cc false m
  have h := shiftRight8_eq_ofNat false m
  rwa [Bool.toNat_false, Nat.mul_zero, Nat.zero_add] at h

/-- Settles O8: the three shifts differ in the bit that enters on the left. -/
theorem rightShifts : Obligations.RightShifts := by
  refine ⟨RunsUnary.unaryForms ?_ computes_lsrOp,
    RunsUnary.unaryForms (op := rorOp) ?_
      (computes_writeNZVC rfl (fun m cc => shiftRight8_eq_ofNat cc.c m) fun m cc => setNZVC_right8 cc cc.c m),
    RunsUnary.unaryForms (op := asrOp) ?_
      (computes_undefH (fun _ _ => rfl) (fun m _ => shiftRight8_msb m) fun m cc => setNZVC_right8_msb cc m)⟩
  all_goals exact ⟨⟨fun _ _ => rfl, fun _ _ => rfl, fun _ _ => rfl⟩, fun _ => rfl, fun _ => rfl⟩

/-- Settles O9: ASL and ROL differ in the bit that enters on the right. -/
theorem leftShifts : Obligations.LeftShifts := by
  refine ⟨RunsUnary.unaryForms (op := aslOp) ?_
      (computes_undefH (fun _ _ => rfl) (fun m _ => shiftLeft8_eq_ofNat m false) fun m cc =>
        setNZVC_left8 cc m false),
    RunsUnary.unaryForms (op := rolOp) ?_
      (computes_writeNZVC rfl (fun m cc => shiftLeft8_eq_ofNat m cc.c) fun m cc => setNZVC_left8 cc m cc.c)⟩
  all_goals exact ⟨⟨fun _ _ => rfl, fun _ _ => rfl, fun _ _ => rfl⟩, fun _ => rfl, fun _ => rfl⟩

/-- CLR writes four fixed flags (R242). -/
theorem computes_clrOp :
    Computes clrOp (fun _ _ => 0x00#8) (fun _ cc => { cc with n := false, z := true, v := false, c := false })
      false :=
  ⟨fun _ _ => rfl, fun _ s => ⟨s.cc.h, s.draws, rfl, fun _ => ⟨rfl, rfl⟩⟩⟩

/-- Settles O10, by the results and flags of INC, DEC and CLR. -/
theorem countAndClear : Obligations.CountAndClear := by
  refine ⟨RunsUnary.unaryForms (op := incOp) ?_
      (computes_writeNZVC rfl (fun m _ => inc_eq_ofNat m) fun m cc => setNZVC_inc8 cc m),
    RunsUnary.unaryForms (op := decOp) ?_
      (computes_writeNZVC rfl (fun m _ => dec_eq_ofNat m) fun m cc => setNZVC_dec8 cc m),
    RunsUnary.unaryForms ?_ computes_clrOp⟩
  all_goals exact ⟨⟨fun _ _ => rfl, fun _ _ => rfl, fun _ _ => rfl⟩, fun _ => rfl, fun _ => rfl⟩

theorem tst_eq (m : Byte) (st : State) : tst m st = { st with cc := testFlags8 st.cc m } := by
  rw [tst, setNZ0_byte]

/-- Settles O11, by the flags of the operand. -/
theorem testInstructions : Obligations.TestInstructions := by
  refine ⟨RunsAtAddress.addressForms (op := load8 tst) ?_ fun ea s => tst_eq (s.read8 ea) s,
    fun st => ⟨⟨_, rfl, tst_eq st.a st⟩, ⟨_, rfl, tst_eq st.b st⟩⟩⟩
  exact ⟨fun _ _ => rfl, fun _ _ => rfl, fun _ _ => rfl⟩

/-! ### MUL -/

/-- The product of two bytes fits in a word (R247). -/
theorem toNat_zext8_mul_zext8 (x y : Byte) : (zext8 x * zext8 y).toNat = x.toNat * y.toNat := by
  have hlt : x.toNat * y.toNat < 256 * 256 := Nat.mul_lt_mul'' x.isLt y.isLt
  have hzext (v : Byte) : (zext8 v).toNat = v.toNat := BitVec.toNat_setWidth_of_le (by decide)
  rw [BitVec.toNat_mul, hzext, hzext]
  exact Nat.mod_eq_of_lt hlt

/-- Settles O12: A and B take the two bytes of the product. -/
theorem multiplyInstruction : Obligations.MultiplyInstruction := by
  intro st
  refine ⟨multiply st, rfl, ?_⟩
  have hp := toNat_zext8_mul_zext8 st.a st.b
  have hhi : hiByte (zext8 st.a * zext8 st.b) = BitVec.ofNat 8 (st.a.toNat * st.b.toNat / 256) := by
    rw [← hp, ← toNat_hiByte, BitVec.ofNat_toNat, BitVec.setWidth_eq]
  have hlo : loByte (zext8 st.a * zext8 st.b) = BitVec.ofNat 8 (st.a.toNat * st.b.toNat % 256) := by
    rw [← hp, ← toNat_loByte, BitVec.ofNat_toNat, BitVec.setWidth_eq]
  have hbit : (zext8 st.a * zext8 st.b).getLsbD 7 = decide (128 ≤ st.a.toNat * st.b.toNat % 256) := by
    rw [getLsbD_eq_decide, hp, decide_eq_decide]
    omega
  dsimp only
  rw [multiply, State.setD, hhi, hlo, isZero_eq, hp, hbit]

/-! ### DAA -/

/-- Settles O13, by the correction and the flags of DAA. -/
theorem decimalAdjust : Obligations.DecimalAdjust := by
  intro st
  refine ⟨Machine.decimalAdjust st, rfl, ?_⟩
  dsimp only
  rw [Nat.add_assoc, ← daaCorrection_eq]
  refine ⟨Config.undefBit st.draws, st.draws + 1, ?_⟩
  rw [Machine.decimalAdjust, setNZVC_daa8]
  rfl

end Sys2Proof.Proofs
end

section
/-! The 16-bit arithmetic, compares, loads and stores, and SEX (42_16bit.md R280 to R287, 43_index_stack.md R300 to
R312): what each operation does to the state, and that each row of the table runs its operation on the operand of its
form. -/

namespace Sys2Proof.Proofs

open Sys2Proof.Machine Sys2Proof.Claims

-- Elaborated one after another: each waiting theorem takes a thread of its own, and the check bounds their stacks.
set_option Elab.async false

/-! ### The rows of an operation -/

/-- The four instructions run the operation on a word operand, each in its own form (R280). -/
structure RunsOnWord (op : Word → State → State) (imm : Word → Instr) (dir : Byte → Instr) (idx : Idx → Instr)
    (ext : Word → Instr) : Prop where
  imm : ∀ v st, exec (imm v) st = .next (op v st)
  memory : RunsAtAddress (load16 op) dir idx ext

/-- Adjusting a pointer register changes no word of memory. -/
theorem read16_afterIndex (st : State) (m : Idx) (q : Word) : (st.afterIndex m).read16 q = st.read16 q := by
  rw [State.read16, State.read8_afterIndex, State.read8_afterIndex, State.read16]

/-- What an operation does to every operand word, its rows do in every form. -/
theorem RunsOnWord.wordForms {op : Word → State → State} {imm : Word → Instr} {dir : Byte → Instr}
    {idx : Idx → Instr} {ext : Word → Instr} {post : Word → State → State → Prop}
    (h : RunsOnWord op imm dir idx ext) (hpost : ∀ v s, post v s (op v s)) : WordForms imm dir idx ext post := by
  intro st
  obtain ⟨hdir, hidx, hext⟩ := h.memory.addressForms (fun ea s => hpost (s.read16 ea) s) st
  refine ⟨fun v => ⟨_, h.imm v st, hpost v st⟩, hdir, fun m => ?_, hext⟩
  have hm : Answers (idx m) st (post ((st.afterIndex m).read16 (st.indexedEA m)) (st.afterIndex m)) := hidx m
  rwa [read16_afterIndex] at hm

/-! ### The bytes of a word -/

theorem hiByte_eq_ofNat (v : Word) : hiByte v = BitVec.ofNat 8 (v.toNat / 256) := by
  rw [← toNat_hiByte, BitVec.ofNat_toNat, BitVec.setWidth_eq]

theorem loByte_eq_ofNat (v : Word) : loByte v = BitVec.ofNat 8 (v.toNat % 256) := by
  rw [← toNat_loByte, BitVec.ofNat_toNat, BitVec.setWidth_eq]

/-- D from a number that may exceed 16 bits: the carry falls off (R21). -/
theorem setD_ofNat (st : State) (n : Nat) :
    st.setD (BitVec.ofNat 16 n) = { st with a := BitVec.ofNat 8 (n / 256), b := BitVec.ofNat 8 (n % 256) } := by
  have hhi : BitVec.ofNat 8 (n % 65536 / 256) = BitVec.ofNat 8 (n / 256) := by
    apply BitVec.eq_of_toNat_eq
    rw [BitVec.toNat_ofNat, BitVec.toNat_ofNat]
    omega
  have hlo : n % 65536 % 256 = n % 256 := Nat.mod_mod_of_dvd n (by decide)
  rw [State.setD, hiByte_eq_ofNat, loByte_eq_ofNat, BitVec.toNat_ofNat, hhi, hlo]

/-- D as a number (R21). -/
theorem toNat_d (st : State) : st.d.toNat = 256 * st.a.toNat + st.b.toNat := by
  rw [State.d, toNat_wordOf, Nat.mul_comm]

/-! ### Sums and differences -/

theorem toNat_add16 (x y : Word) : (add16 x y).r.toNat = (x.toNat + y.toNat) % 65536 := BitVec.toNat_ofNat _ _

/-- Operands of like sign and a result of the other: the signed sum leaves the range (R12). -/
theorem add16_v (x y : Word) : (add16 x y).v = overflows16 (x.toInt + y.toInt) := by
  have hx := x.isLt
  have hy := y.isLt
  have hv : (add16 x y).v = (x.msb == y.msb && (add16 x y).r.msb != x.msb) := rfl
  rw [hv, overflows16, toInt_word, toInt_word, BitVec.msb_eq_decide, BitVec.msb_eq_decide, BitVec.msb_eq_decide,
    toNat_add16, Bool.eq_iff_iff, Bool.and_eq_true, beq_iff_eq, bne_iff_ne, ne_eq, decide_eq_decide,
    decide_eq_decide, decide_eq_true_iff]
  split <;> split <;> omega

/-- The flags of a sum of words (R12). -/
theorem setNZVC_add16 (cc : CC) (x y : Word) :
    cc.setNZVC (add16 x y) =
      wordFlags cc ((x.toNat + y.toNat) % 65536) (x.toInt + y.toInt) (decide (65536 ≤ x.toNat + y.toNat)) := by
  have hn : (add16 x y).n = isNeg (add16 x y).r := rfl
  have hz : (add16 x y).z = isZero (add16 x y).r := rfl
  rw [CC.setNZVC, hn, hz, add16_v, isNeg_word, isZero_eq, toNat_add16]
  rfl

theorem addToD_eq (v : Word) (s : State) :
    addToD v s =
      { s with
        a := BitVec.ofNat 8 ((256 * s.a.toNat + s.b.toNat + v.toNat) / 256)
        b := BitVec.ofNat 8 ((256 * s.a.toNat + s.b.toNat + v.toNat) % 256)
        cc := wordFlags s.cc ((256 * s.a.toNat + s.b.toNat + v.toNat) % 65536) (s.d.toInt + v.toInt)
          (decide (65536 ≤ 256 * s.a.toNat + s.b.toNat + v.toNat)) } := by
  have hr : (add16 s.d v).r = BitVec.ofNat 16 (s.d.toNat + v.toNat) := rfl
  rw [addToD, hr, setD_ofNat, setNZVC_add16, toNat_d]

theorem subFromD_eq (v : Word) (s : State) :
    subFromD v s =
      { s with
        a := BitVec.ofNat 8 ((256 * s.a.toNat + s.b.toNat + 65536 - v.toNat) / 256)
        b := BitVec.ofNat 8 ((256 * s.a.toNat + s.b.toNat + 65536 - v.toNat) % 256)
        cc := differenceFlags16 s.cc s.d v } := by
  have hr : (sub16 s.d v).r = BitVec.ofNat 16 (s.d.toNat + 65536 - v.toNat) := rfl
  rw [subFromD, hr, setD_ofNat, setNZVC_sub16, toNat_d]

/-- Settles O15, by the sum and the difference with their flags. -/
theorem wordArithmetic : Obligations.WordArithmetic := by
  refine ⟨RunsOnWord.wordForms ?_ addToD_eq, RunsOnWord.wordForms ?_ subFromD_eq⟩
  all_goals exact ⟨fun _ _ => rfl, fun _ _ => rfl, fun _ _ => rfl, fun _ _ => rfl⟩

theorem cmp16_post (r : Reg16) (v : Word) (s : State) : ComparePost16 (fun s => s.reg16 r) v s (cmp16 r v s) := by
  rw [ComparePost16, cmp16, setNZVC_sub16]

/-- Settles O16: the five compares differ in the register that they read. -/
theorem compareWordInstructions : Obligations.CompareWordInstructions := by
  refine ⟨RunsOnWord.wordForms ?_ (cmp16_post .d), RunsOnWord.wordForms ?_ (cmp16_post .x),
    RunsOnWord.wordForms ?_ (cmp16_post .y), RunsOnWord.wordForms ?_ (cmp16_post .u),
    RunsOnWord.wordForms ?_ (cmp16_post .s)⟩
  all_goals exact ⟨fun _ _ => rfl, fun _ _ => rfl, fun _ _ => rfl, fun _ _ => rfl⟩

/-! ### Loads -/

theorem setNZ0_word (cc : CC) (r : Word) : cc.setNZ0 r = testFlags16 cc r := by
  rw [CC.setNZ0, testFlags16, isNeg_word, isZero_eq]

theorem ld16_post (r : Reg16) (v : Word) (s : State) :
    LoadPost16 (fun v s => s.loadReg16 r v) v s (ld16 r v s) := by
  rw [LoadPost16, ld16, setNZ0_word]

theorem ldd_post (v : Word) (s : State) :
    LoadPost16 (fun v s => { s with a := BitVec.ofNat 8 (v.toNat / 256), b := BitVec.ofNat 8 (v.toNat % 256) }) v s
      (ld16 .d v s) := by
  rw [LoadPost16, ← hiByte_eq_ofNat, ← loByte_eq_ofNat]
  exact ld16_post .d v s

/-- Settles O17: the five loads differ in the register that they write; LDS arms NMI with it (`State.loadS`). -/
theorem loadWordInstructions : Obligations.LoadWordInstructions := by
  refine ⟨RunsOnWord.wordForms ?_ ldd_post, RunsOnWord.wordForms ?_ (ld16_post .x),
    RunsOnWord.wordForms ?_ (ld16_post .y), RunsOnWord.wordForms ?_ (ld16_post .u),
    RunsOnWord.wordForms ?_ (ld16_post .s)⟩
  all_goals exact ⟨fun _ _ => rfl, fun _ _ => rfl, fun _ _ => rfl, fun _ _ => rfl⟩

/-! ### Stores -/

/-- The two bytes of a word go to different addresses, so it does not matter which is written first (R66). -/
theorem read8_write16_comm (st : State) (p q v : Word) :
    (st.write16 p v).read8 q = ((st.write8 (p + 1#16) (loByte v)).write8 p (hiByte v)).read8 q := by
  rw [State.read8_write16, State.read8_write8, State.read8_write8, State.write8_kindAt]
  by_cases hhi : p = q ∧ st.kindAt p = .ram
  · have hlo : ¬(p + 1#16 = q ∧ st.kindAt (p + 1#16) = .ram) := by
      obtain ⟨hsame, -⟩ := hhi
      rintro ⟨hnext, -⟩
      exact Word.add_one_ne p (hnext.trans hsame.symm)
    rw [if_neg hlo, if_pos hhi, if_pos hhi]
  · rw [if_neg hhi, if_neg hhi]

/-- A state that reads as after the write of a word: its bytes are stored, high byte first, and no other changes. -/
theorem stored_word {st t : State} {p v : Word} (hread : ∀ q, t.read8 q = (st.write16 p v).read8 q) :
    Stored st t p (bytesOf v) := by
  have hhi : Stored (st.write8 (p + 1#16) (loByte v)) t p [hiByte v] :=
    stored_byte fun q => (hread q).trans (read8_write16_comm st p q v)
  rw [bytesOf_eq]
  refine stored_snoc (bytes := [hiByte v]) (by simp) (State.write8_kindAt st _ _) (fun q => ?_) hhi
  rw [List.length_singleton, State.read8_write8]

theorem st16_post (r : Reg16) (ea : Word) (s : State) : StorePost16 (fun s => s.reg16 r) ea s (st16 r ea s) := by
  refine ⟨stored_word fun _ => rfl, ?_⟩
  rw [st16, setNZ0_word]
  rfl

/-- Settles O18, by the two bytes that a store writes. -/
theorem storeWordInstructions : Obligations.StoreWordInstructions := by
  refine ⟨RunsAtAddress.addressForms ?_ (st16_post .d), RunsAtAddress.addressForms ?_ (st16_post .x),
    RunsAtAddress.addressForms ?_ (st16_post .y), RunsAtAddress.addressForms ?_ (st16_post .u),
    RunsAtAddress.addressForms ?_ (st16_post .s)⟩
  all_goals exact ⟨fun _ _ => rfl, fun _ _ => rfl, fun _ _ => rfl⟩

/-! ### SEX -/

/-- The extended byte as a number: bit 7 fills the high byte (R7). -/
theorem toNat_sext8 (v : Byte) : (sext8 v).toNat = v.toNat + if 128 ≤ v.toNat then 65280 else 0 := by
  have hwidth : (v.setWidth 16).toNat = v.toNat := BitVec.toNat_setWidth_of_le (by decide)
  simp only [sext8, BitVec.toNat_signExtend, hwidth, BitVec.msb_eq_decide, decide_eq_true_eq]

theorem hiByte_sext8 (v : Byte) : hiByte (sext8 v) = if 128 ≤ v.toNat then 0xFF#8 else 0x00#8 := by
  have hv := v.isLt
  apply BitVec.eq_of_toNat_eq
  rw [toNat_hiByte, toNat_sext8, apply_ite BitVec.toNat, BitVec.toNat_ofNat, BitVec.toNat_ofNat]
  split <;> omega

theorem loByte_sext8 (v : Byte) : loByte (sext8 v) = v := by
  have hv := v.isLt
  apply BitVec.eq_of_toNat_eq
  rw [toNat_loByte, toNat_sext8]
  split <;> omega

theorem isNeg_sext8 (v : Byte) : isNeg (sext8 v) = decide (128 ≤ v.toNat) := by
  have hv := v.isLt
  rw [isNeg_word, toNat_sext8, decide_eq_decide]
  split <;> omega

theorem isZero_sext8 (v : Byte) : isZero (sext8 v) = decide (v.toNat = 0) := by
  rw [isZero_eq, toNat_sext8, decide_eq_decide]
  split <;> omega

/-- Settles O19, by the bytes and the flags of the extended word. -/
theorem signExtension : Obligations.SignExtension := by
  refine fun st => ⟨signExtendB st, rfl, Config.undefBit st.draws, st.draws + 1, ?_⟩
  rw [signExtendB, isNeg_sext8, isZero_sext8, State.setD, hiByte_sext8, loByte_sext8]
  rfl

end Sys2Proof.Proofs
end

section
/-! LEA, ABX, TFR and EXG (43_index_stack.md R300, R313 to R318, R326, R327): the address or the sum that goes to a
register, and what a write by register code (R119) does to the register named, to those apart from it, and to the rest
of the state. -/

namespace Sys2Proof.Proofs

open Sys2Proof.Machine Sys2Proof.Claims

-- Elaborated one after another: each waiting theorem takes a thread of its own, and the check bounds their stacks.
set_option Elab.async false

/-! ### LEA and ABX -/

/-- LEAX and LEAY: the adjustment of the pointer leaves the flags that Z is put into (R313). -/
theorem leaZ_afterIndex (st : State) (m : Idx) (r : Reg16) (ea : Word) :
    leaZ r ea (st.afterIndex m) =
      { (st.afterIndex m).assignReg16 r ea with cc := { st.cc with z := decide (ea.toNat = 0) } } := by
  rw [leaZ, isZero_eq, State.afterIndex_cc]

/-- S as a destination, after an adjustment, which arms nothing (R300, D9). -/
theorem assignS_afterIndex (st : State) (m : Idx) (v : Word) :
    (st.afterIndex m).assignS v = { st.afterIndex m with s := v, nmiArmed := st.nmiArmed || wide st } := by
  have hassign : (st.afterIndex m).assignS v =
    { st.afterIndex m with s := v, nmiArmed := (st.afterIndex m).nmiArmed || wide (st.afterIndex m) } := rfl
  rw [hassign, State.afterIndex_nmiArmed, wide_congr (st.afterIndex_platform m)]

/-- B counts as an unsigned number (R318). -/
theorem addBToX_eq (st : State) : addBToX st = { st with x := BitVec.ofNat 16 (st.x.toNat + st.b.toNat) } := by
  have hsum : st.x + zext8 st.b = BitVec.ofNat 16 (st.x.toNat + st.b.toNat) := by
    rw [BitVec.ofNat_add, BitVec.ofNat_toNat, BitVec.setWidth_eq, BitVec.ofNat_toNat, zext8]
  rw [addBToX, hsum]

/-- Settles O20: each LEA assigns the address to its register after the adjustment, ABX the sum. -/
theorem pointerArithmetic : Obligations.PointerArithmetic := fun st m =>
  ⟨⟨_, rfl, leaZ_afterIndex st m .x _⟩, ⟨_, rfl, leaZ_afterIndex st m .y _⟩, ⟨_, rfl, rfl⟩,
    ⟨_, rfl, assignS_afterIndex st m _⟩, ⟨_, rfl, addBToX_eq st⟩⟩

/-! ### A write by register code -/

/-- The register written takes the value; D is put together again from its two bytes, CC from its eight bits. -/
theorem readCode_writeCode {st t : State} {c : RegCode} {v : RegValue} (h : st.writeCode c v = some t) :
    t.readCode c = v := by
  cases c <;> cases v <;> simp only [State.writeCode, Option.some.injEq, reduceCtorEq] at h <;> subst h
  case d.word => exact congrArg RegValue.word (wordOf_hiByte_loByte _)
  case cc.byte => exact congrArg RegValue.byte (CC.toByte_ofByte _)
  all_goals rfl

/-- A register that is neither the one written nor a half or the whole of it keeps its value. -/
theorem readCode_writeCode_apart {st t : State} {c r : RegCode} {v : RegValue} (h : st.writeCode r v = some t)
    (hapart : overlap c r = false) : t.readCode c = st.readCode c := by
  cases r <;> cases v <;> simp only [State.writeCode, Option.some.injEq, reduceCtorEq] at h <;> subst h <;>
    cases c <;> simp [overlap, State.readCode, State.d] at hapart ⊢

/-- A write of a register draws no free bit. -/
theorem draws_writeCode {st t : State} {c : RegCode} {v : RegValue} (h : st.writeCode c v = some t) :
    t.draws = st.draws := by
  cases c <;> cases v <;> simp only [State.writeCode, Option.some.injEq, reduceCtorEq] at h <;> subst h <;> rfl

/-- Two registers of one size are the same or apart: D is wider than its halves. -/
theorem overlap_of_is16_eq {c r : RegCode} (hsize : c.is16 = r.is16) (hne : c ≠ r) : overlap c r = false := by
  revert hsize hne
  cases c <;> cases r <;> decide

/-- A register takes no value of the other size (R120). -/
theorem writeCode_eq_none {src dst : RegCode} (hsize : src.is16 ≠ dst.is16) (s st : State) :
    s.writeCode dst (st.readCode src) = none := by
  rw [← Option.not_isSome_iff_eq_none, State.writeCode_isSome, validPair, beq_iff_eq]
  exact hsize

/-! ### TFR and EXG -/

theorem transfer_of_is16_ne {src dst : RegCode} (hsize : src.is16 ≠ dst.is16) (st : State) :
    transfer src dst st = .refused .invalidRegisterPair := by
  rw [transfer, writeCode_eq_none hsize]

theorem exchange_of_is16_ne {src dst : RegCode} (hsize : src.is16 ≠ dst.is16) (st : State) :
    exchange src dst st = .refused .invalidRegisterPair := by
  rw [exchange, writeCode_eq_none hsize.symm]

/-- Settles O26: TFR is one write by register code. -/
theorem transferRegisters : Obligations.TransferRegisters := by
  refine fun st src dst => ⟨fun hsize => ?_, fun hsize => transfer_of_is16_ne hsize st⟩
  obtain ⟨t, hwrite, hnext⟩ := transfer_of_validPair (beq_iff_eq.mpr hsize) st
  obtain ⟨hplatform, hbusTime, hinputs, hpending, hresetHalt⟩ :=
    State.surroundings_eq_iff.mp (surroundings_transfer hnext)
  obtain ⟨-, -, -, -, hrun, harmed⟩ := changesOnly_iff.mp (changesOnly_transfer hnext)
  exact ⟨t, hnext, readCode_writeCode hwrite, fun c => readCode_writeCode_apart hwrite, Laws.mem_transfer hnext,
    hrun rfl, hresetHalt, hinputs, draws_writeCode hwrite, hplatform, hbusTime, hpending, harmed⟩

/-- The first register of EXG keeps the value that it takes: the second write is of the same register with the same
value, or of a register apart. -/
theorem readCode_exchanged {st s t : State} {src dst : RegCode} (hsize : src.is16 = dst.is16)
    (hfirst : st.writeCode src (st.readCode dst) = some s) (hsecond : s.writeCode dst (st.readCode src) = some t) :
    t.readCode src = st.readCode dst := by
  by_cases hsame : src = dst
  · subst hsame
    exact readCode_writeCode hsecond
  · calc
      t.readCode src = s.readCode src := readCode_writeCode_apart hsecond (overlap_of_is16_eq hsize hsame)
      _ = st.readCode dst := readCode_writeCode hfirst

/-- Settles O27: EXG is two writes by register code, of values read before either. -/
theorem exchangeRegisters : Obligations.ExchangeRegisters := by
  refine fun st src dst => ⟨fun hsize => ?_, fun hsize => exchange_of_is16_ne hsize st⟩
  obtain ⟨s, t, hfirst, hsecond, hnext⟩ := exchange_of_validPair (beq_iff_eq.mpr hsize) st
  obtain ⟨hplatform, hbusTime, hinputs, hpending, hresetHalt⟩ :=
    State.surroundings_eq_iff.mp (surroundings_exchange hnext)
  obtain ⟨-, -, -, -, hrun, harmed⟩ := changesOnly_iff.mp (changesOnly_exchange hnext)
  have hkept (c : RegCode) (hsrc : overlap c src = false) (hdst : overlap c dst = false) :
      t.readCode c = st.readCode c :=
    (readCode_writeCode_apart hsecond hdst).trans (readCode_writeCode_apart hfirst hsrc)
  have hdraws : t.draws = st.draws := (draws_writeCode hsecond).trans (draws_writeCode hfirst)
  have harms : t.nmiArmed = (st.nmiArmed || ((src == .s || dst == .s) && wide st)) := by
    rw [Bool.and_or_distrib_right]
    exact harmed
  exact ⟨t, hnext, readCode_writeCode hsecond, readCode_exchanged hsize hfirst hsecond, hkept,
    Laws.mem_exchange hnext, hrun rfl, hresetHalt, hinputs, hdraws, hplatform, hbusTime, hpending, harms⟩

end Sys2Proof.Proofs
end

section
/-! Branches, calls, jumps and the return (44_branches.md R350 to R385, 45_misc.md R404 to R406): what a branch, a call
and RTS do to the state, that each row of the table runs its operation, and that RTS undoes a call to RAM. -/

namespace Sys2Proof.Proofs

open Sys2Proof.Machine Sys2Proof.Claims

-- Elaborated one after another: each waiting theorem takes a thread of its own, and the check bounds their stacks.
set_option Elab.async false

/-! ### Branches -/

/-- The target of a short form is PC displaced by its signed offset (R98). -/
theorem shortTarget_eq_displaced (st : State) (off : Byte) : st.shortTarget off = displaced st.pc off.toInt :=
  add_sext8_eq_displaced st.pc off

/-- So is that of a long form (R99). -/
theorem longTarget_eq_displaced (st : State) (off : Word) : st.longTarget off = displaced st.pc off.toInt :=
  add_eq_displaced st.pc off

/-- A long branch whose condition is known (R350). -/
theorem longBranch_post {k : Cond} {taken : Bool} {t : State} (h : k.holds t.cc = taken) (off : Word) :
    BranchPost taken off.toInt t (branch k (t.longTarget off) t) := by
  rw [BranchPost, branch, h, longTarget_eq_displaced]
  cases taken <;> rfl

/-- The two instructions branch on the condition, each to the target of its own form (R350). -/
structure RunsBranch (k : Cond) (short : Byte → Instr) (long : Word → Instr) : Prop where
  short : ∀ off st, exec (short off) st = .next (branch k (st.shortTarget off) st)
  long : ∀ off st, exec (long off) st = .next (branch k (st.longTarget off) st)

theorem RunsBranch.branchPair {k : Cond} {short : Byte → Instr} {long : Word → Instr} {taken : CC → Bool}
    (h : RunsBranch k short long) (hholds : ∀ cc, k.holds cc = taken cc) : BranchPair short long taken :=
  fun st => ⟨fun off => ⟨_, h.short off st, branch_post (hholds st.cc) off⟩,
    fun off => ⟨_, h.long off st, longBranch_post (hholds st.cc) off⟩⟩

/-- The signed conditions test N against V (GK5). -/
theorem xor_eq_decide_ne (n v : Bool) : (n ^^ v) = decide (n ≠ v) := by
  rw [Bool.eq_iff_iff, Bool.xor_iff_ne, decide_eq_true_iff]

theorem holds_higher (cc : CC) : Cond.holds .higher cc = decide (cc.c = false ∧ cc.z = false) := by
  rw [Cond.holds, Bool.decide_and, Bool.decide_eq_false, Bool.decide_eq_false]

theorem holds_lowerOrSame (cc : CC) : Cond.holds .lowerOrSame cc = decide (cc.c = true ∨ cc.z = true) := by
  rw [Cond.holds, Bool.decide_or, Bool.decide_eq_true, Bool.decide_eq_true]

theorem holds_greaterOrEqual (cc : CC) : Cond.holds .greaterOrEqual cc = decide (cc.n = cc.v) := by
  rw [Cond.holds, xor_eq_decide_ne, ← decide_not, decide_eq_decide, not_not]

theorem holds_greater (cc : CC) : Cond.holds .greater cc = decide (cc.z = false ∧ cc.n = cc.v) := by
  rw [Bool.decide_and, Bool.decide_eq_false, ← holds_greaterOrEqual]
  rfl

theorem holds_lessOrEqual (cc : CC) : Cond.holds .lessOrEqual cc = decide (cc.z = true ∨ cc.n ≠ cc.v) := by
  rw [Cond.holds, xor_eq_decide_ne, Bool.decide_or, Bool.decide_eq_true]

/-- Settles O28: each pair of rows branches on one condition of R351. -/
theorem branches : Obligations.Branches := by
  refine ⟨RunsBranch.branchPair (k := .always) ?_ fun _ => rfl,
    RunsBranch.branchPair (k := .never) ?_ fun _ => rfl,
    RunsBranch.branchPair ?_ holds_higher,
    RunsBranch.branchPair ?_ holds_lowerOrSame,
    RunsBranch.branchPair (k := .carryClear) ?_ fun _ => Bool.decide_eq_false.symm,
    RunsBranch.branchPair (k := .carrySet) ?_ fun _ => Bool.decide_eq_true.symm,
    RunsBranch.branchPair (k := .notEqual) ?_ fun _ => Bool.decide_eq_false.symm,
    RunsBranch.branchPair (k := .equal) ?_ fun _ => Bool.decide_eq_true.symm,
    RunsBranch.branchPair (k := .overflowClear) ?_ fun _ => Bool.decide_eq_false.symm,
    RunsBranch.branchPair (k := .overflowSet) ?_ fun _ => Bool.decide_eq_true.symm,
    RunsBranch.branchPair (k := .plus) ?_ fun _ => Bool.decide_eq_false.symm,
    RunsBranch.branchPair (k := .minus) ?_ fun _ => Bool.decide_eq_true.symm,
    RunsBranch.branchPair ?_ holds_greaterOrEqual,
    RunsBranch.branchPair (k := .less) ?_ fun cc => xor_eq_decide_ne cc.n cc.v,
    RunsBranch.branchPair ?_ holds_greater,
    RunsBranch.branchPair ?_ holds_lessOrEqual⟩
  all_goals exact ⟨fun _ _ => rfl, fun _ _ => rfl⟩

/-! ### Calls, jumps and RTS -/

/-- A push of a word stores it just below the old stack pointer, high byte at the lower address (R80). -/
theorem push16_stored (st : State) (k : Stack) (v : Word) :
    Stored st (st.push16 k v) (st.sp k - 2#16) (bytesOf v) := by
  rw [bytesOf_eq]
  exact stored_foldl_push8 k [loByte v, hiByte v] st (by simp)

/-- A push of a word changes memory and its stack pointer alone (R80). -/
theorem push16_eq (st : State) (k : Stack) (v : Word) :
    st.push16 k v = { st.setSp k (st.sp k - 2#16) with mem := (st.push16 k v).mem } :=
  foldl_push8_eq k [loByte v, hiByte v] st

theorem call_post (target : Word) (s : State) : CallPost target s (call target s) :=
  ⟨push16_stored s .s s.pc, congrArg (fun t : State => { t with pc := target }) (push16_eq s .s s.pc)⟩

/-- Settles O30: the calls run one operation, each on the target of its own form. -/
theorem callsAndJumps : Obligations.CallsAndJumps := by
  refine ⟨RunsAtAddress.addressForms ?_ call_post, RunsAtAddress.addressForms (op := jump) ?_ fun _ _ => rfl,
    fun st => ⟨fun off => ⟨_, rfl, ?_⟩, fun off => ⟨_, rfl, ?_⟩, ⟨_, rfl, rfl⟩⟩⟩
  · exact ⟨fun _ _ => rfl, fun _ _ => rfl, fun _ _ => rfl⟩
  · exact ⟨fun _ _ => rfl, fun _ _ => rfl, fun _ _ => rfl⟩
  · rw [← shortTarget_eq_displaced]
    exact call_post _ st
  · rw [← longTarget_eq_displaced]
    exact call_post _ st

/-! ### A call and a later return -/

theorem read16_of_liesAt {h : State} {p v : Word} (hlies : LiesAt h p (bytesOf v)) : h.read16 p = v := by
  rw [bytesOf_eq, liesAt_cons, liesAt_cons] at hlies
  obtain ⟨-, hhi, -, hlo, -⟩ := hlies
  rw [State.read16_eq, hhi, hlo, wordOf_hiByte_loByte]

/-- RTS on the stack that a call left in RAM continues after the call, with S as it was (R406). -/
theorem exec_rts_of_callPost {s t h : State} {target : Word} (hcall : CallPost target s t) (hram : AllRam s t.s 2)
    (hs : h.s = t.s) (hmem : h.mem = t.mem) (hplatform : h.platform = t.platform) :
    exec .rts h = .next { h with pc := s.pc, s := s.s } := by
  obtain ⟨⟨hstored, -⟩, hframe⟩ := hcall
  have htop : t.s = s.s - 2#16 := by rw [hframe]
  have hsame : t.platform = s.platform := by rw [hframe]
  have hlies : LiesAt h h.s (bytesOf s.pc) := by
    rw [hs, htop]
    rw [htop] at hram
    exact liesAt_of_storedAt hstored hram hsame hmem hplatform
  have hback : h.s + 2#16 = s.s := by rw [hs, htop, BitVec.sub_add_cancel]
  calc
    exec .rts h = .next { h with pc := h.read16 h.s, s := h.s + 2#16 } := rfl
    _ = .next { h with pc := s.pc, s := s.s } := by rw [read16_of_liesAt hlies, hback]

/-- Settles O31: every call form leaves what RTS needs; an adjusted pointer register keeps PC and the platform. -/
theorem callThenReturn : Obligations.CallThenReturn := by
  obtain ⟨hjsr, -, hbranch⟩ := callsAndJumps
  intro st
  obtain ⟨hdir, hidx, hext⟩ := hjsr st
  obtain ⟨hbsr, hlbsr, -⟩ := hbranch st
  refine ⟨fun i hi => ?_, fun m => ?_⟩
  · have hcall : ∃ target, Answers i st (CallPost target st) := by
      obtain ⟨off, rfl⟩ | ⟨off, rfl⟩ | ⟨lo, rfl⟩ | ⟨a, rfl⟩ := hi
      · exact ⟨_, hbsr off⟩
      · exact ⟨_, hlbsr off⟩
      · exact ⟨_, hdir lo⟩
      · exact ⟨_, hext a⟩
    obtain ⟨target, t, hexec, hpost⟩ := hcall
    exact ⟨t, hexec, fun h => exec_rts_of_callPost hpost⟩
  · obtain ⟨t, hexec, hpost⟩ := hidx m
    refine ⟨t, hexec, fun h hram hs hmem hplatform => ?_⟩
    have hram' : AllRam (st.afterIndex m) t.s 2 := fun k hk => by
      rw [State.kindAt, State.afterIndex_platform]
      exact hram k hk
    rw [exec_rts_of_callPost hpost hram' hs hmem hplatform, State.afterIndex_pc]

end Sys2Proof.Proofs
end

section
/-! Condition code instructions, the software interrupts, RTI and the two waits (45_misc.md R400 to R411): what a
stacking stores, what RTI unstacks, and that RTI undoes every exception entry (60_exceptions.md R440 to R446). -/

namespace Sys2Proof.Proofs

open Sys2Proof.Machine Sys2Proof.Claims

-- Elaborated one after another: each waiting theorem takes a thread of its own, and the check bounds their stacks.
set_option Elab.async false

/-! ### ANDCC, ORCC, NOP -/

/-- Settles O33: CC has no reserved bit, so the byte written is the byte read back. -/
theorem conditionCodeInstructions : Obligations.ConditionCodeInstructions :=
  fun _ _ => ⟨⟨_, rfl, rfl, CC.toByte_ofByte _⟩, ⟨_, rfl, rfl, CC.toByte_ofByte _⟩, ⟨_, rfl, rfl⟩⟩

/-! ### The two stackings and the entry of a handler -/

/-- The stacking of the entire state is the push of all registers with E set (R440). -/
theorem stackEntire_post (st : State) :
    Stored st st.stackEntire (st.s - 12#16) (entireFrame st) ∧
      st.stackEntire =
        { st with mem := st.stackEntire.mem, s := st.s - 12#16, cc := { st.cc with e := true } } :=
  pushRegs_stores { st with cc := { st.cc with e := true } } .s 0xFF#8

/-- The subset stacking is the push of PC and CC with E clear (R442). -/
theorem stackSubset_post (st : State) :
    Stored st st.stackSubset (st.s - 3#16) (subsetFrame st) ∧
      st.stackSubset =
        { st with mem := st.stackSubset.mem, s := st.s - 3#16, cc := { st.cc with e := false } } :=
  pushRegs_stores { st with cc := { st.cc with e := false } } .s 0x81#8

/-- Entering a handler stores nothing (R431). -/
theorem stored_enterHandler {st s : State} {p : Word} {bytes : List Byte} (ev : Event) (h : Stored st s p bytes) :
    Stored st (s.enterHandler ev) p bytes := h

/-- The masks that a handler is entered with, in the terms of its event (R431). -/
theorem enterHandler_eq (s : State) {ev : Event} {i f : Bool} (hi : (s.cc.i || ev.setsI) = i)
    (hf : (s.cc.f || ev.setsF) = f) :
    s.enterHandler ev = { s with cc := { s.cc with i := i, f := f }, pc := s.read16 ev.vector } := by
  rw [State.enterHandler, hi, hf]

/-- An exception with an entire stacking (R407 to R409, R441, R443). -/
theorem takeException_entirePost (st : State) {ev : Event} (hev : ev.entire = true) :
    EntirePost ev.setsI ev.setsF ev.vector st (st.takeException ev) := by
  obtain ⟨hstored, hframe⟩ := stackEntire_post st
  have htake : st.takeException ev = st.stackEntire.enterHandler ev := by rw [State.takeException, if_pos hev]
  rw [htake]
  exact ⟨stored_enterHandler ev hstored, congrArg (fun s : State => { s with
    cc := { s.cc with i := s.cc.i || ev.setsI, f := s.cc.f || ev.setsF }
    pc := st.stackEntire.read16 ev.vector }) hframe⟩

/-- FIRQ stacks PC and CC and masks both lines (R442). -/
theorem takeException_firq_post (st : State) : SubsetPost st (st.takeException .firq) := by
  obtain ⟨hstored, hframe⟩ := stackSubset_post st
  have htake : st.takeException .firq =
      { st.stackSubset with
        cc := { st.stackSubset.cc with i := true, f := true }
        pc := st.stackSubset.read16 0xFFF6#16 } :=
    enterHandler_eq st.stackSubset (ev := .firq) (Bool.or_true _) (Bool.or_true _)
  exact ⟨stored_enterHandler .firq hstored, htake.trans (congrArg (fun s : State => { s with
    cc := { s.cc with i := true, f := true }
    pc := st.stackSubset.read16 0xFFF6#16 }) hframe)⟩

/-- Settles O34: each software interrupt is an exception with an entire stacking. -/
theorem softwareInterrupts : Obligations.SoftwareInterrupts :=
  fun st => ⟨⟨_, rfl, takeException_entirePost st (ev := .swi) rfl⟩,
    ⟨_, rfl, takeException_entirePost st (ev := .swi2) rfl⟩,
    ⟨_, rfl, takeException_entirePost st (ev := .swi3) rfl⟩⟩

/-- Settles O37: CWAI is ANDCC, then the stacking of the entire state, then the wait. -/
theorem waitInstructions : Obligations.WaitInstructions := by
  intro st imm
  obtain ⟨hstored, hframe⟩ := stackEntire_post (andCC imm st)
  exact ⟨⟨_, rfl, rfl⟩, ⟨_, rfl, hstored, congrArg (fun s : State => { s with run := .cwaiWait }) hframe⟩⟩

/-! ### RTI -/

/-- RTI pulls CC first (R410). -/
theorem pullRegs_cc (st : State) :
    st.pullRegs .s 0x01#8 = { st with cc := CC.ofByte (st.read8 st.s), s := st.s + 1#16 } := rfl

/-- The rest of an entire frame: every register but CC. -/
theorem pullRegs_allButCC (st : State) :
    st.pullRegs .s 0xFE#8 =
      { st with
        a := st.read8 st.s
        b := st.read8 (st.s + 1#16)
        dp := st.read8 (st.s + 2#16)
        x := st.read16 (st.s + 3#16)
        y := st.read16 (st.s + 5#16)
        u := st.read16 (st.s + 7#16)
        pc := st.read16 (st.s + 9#16)
        s := st.s + 11#16 } := by
  have hfirst : st.s + BitVec.ofNat 16 (bytesBelow 0xFE#8 1) = st.s := BitVec.add_zero _
  have hcc : CC.ofByte (pulled8 st st.s 0xFE#8 0 st.cc.toByte) = st.cc := CC.ofByte_toByte st.cc
  have ha : pulled8 st st.s 0xFE#8 1 st.a = st.read8 st.s := congrArg st.read8 hfirst
  calc
    st.pullRegs .s 0xFE#8 = _ := pullRegs_eq st .s 0xFE#8
    _ = { st with
          cc := CC.ofByte (pulled8 st st.s 0xFE#8 0 st.cc.toByte)
          a := pulled8 st st.s 0xFE#8 1 st.a
          b := st.read8 (st.s + 1#16)
          dp := st.read8 (st.s + 2#16)
          x := st.read16 (st.s + 3#16)
          y := st.read16 (st.s + 5#16)
          u := st.read16 (st.s + 7#16)
          pc := st.read16 (st.s + 9#16)
          s := st.s + 11#16 } := rfl
    _ = _ := by rw [hcc, ha]

/-- The rest of a subset frame: PC. -/
theorem pullRegs_pc (st : State) :
    st.pullRegs .s 0x80#8 = { st with pc := st.read16 st.s, s := st.s + 2#16 } := rfl

/-- RTI by the E bit of the byte at S (R410). -/
theorem returnFromInterrupt_eq (st : State) {e : Bool} (he : (st.read8 st.s).getLsbD 7 = e) :
    st.returnFromInterrupt =
      { st with cc := CC.ofByte (st.read8 st.s), s := st.s + 1#16 }.pullRegs .s (if e then 0xFE#8 else 0x80#8) := by
  rw [← he, State.returnFromInterrupt, pullRegs_cc]
  rfl

/-- Settles O35: the rest of the frame is pulled from one above the byte of CC. -/
theorem returnFromInterrupt : Obligations.ReturnFromInterrupt := by
  intro st
  have hread (cc : CC) (s a : Word) : ({ st with cc := cc, s := s } : State).read8 a = st.read8 a := rfl
  have hread16 (cc : CC) (s a : Word) : ({ st with cc := cc, s := s } : State).read16 a = st.read16 a := rfl
  have hafter (n : Nat) : st.s + 1#16 + BitVec.ofNat 16 n = st.s + BitVec.ofNat 16 (1 + n) := by
    rw [BitVec.add_assoc, BitVec.ofNat_add]
  refine ⟨fun he => ⟨_, rfl, ?_⟩, fun he => ⟨_, rfl, ?_⟩⟩
  · rw [returnFromInterrupt_eq st he, if_pos rfl, pullRegs_allButCC]
    simp only [hread, hread16, hafter]
  · rw [returnFromInterrupt_eq st he, if_neg Bool.false_ne_true, pullRegs_pc]
    simp only [hread16, hafter]

/-! ### An entry and a later RTI -/

/-- E is bit 7 of the CC byte (R28). -/
theorem getLsbD_toByte_seven (cc : CC) : cc.toByte.getLsbD 7 = cc.e := congrArg CC.e (CC.ofByte_toByte cc)

/-- RTI on an entire frame of `st` (R410, R440). -/
theorem exec_rti_of_entireFrame {st h : State} (hlies : LiesAt h h.s (entireFrame st)) :
    exec .rti h = .next { h with
      cc := { st.cc with e := true }
      a := st.a
      b := st.b
      dp := st.dp
      x := st.x
      y := st.y
      u := st.u
      pc := st.pc
      s := h.s + 12#16 } := by
  have hbyte (k : Nat) (hk : k < 12) : h.read8 (h.s + BitVec.ofNat 16 k) = (entireFrame st)[k] := (hlies k hk).2
  have hcc : h.read8 h.s = CC.toByte { st.cc with e := true } := by
    rw [← BitVec.add_zero h.s]
    exact hbyte 0 (by decide)
  have ha : h.read8 (h.s + 1#16) = st.a := hbyte 1 (by decide)
  have hb : h.read8 (h.s + 2#16) = st.b := hbyte 2 (by decide)
  have hdp : h.read8 (h.s + 3#16) = st.dp := hbyte 3 (by decide)
  rw [entireFrame, liesAt_append, liesAt_append, liesAt_append, liesAt_append] at hlies
  obtain ⟨⟨⟨⟨-, hlx⟩, hly⟩, hlu⟩, hlpc⟩ := hlies
  have hx : h.read16 (h.s + 4#16) = st.x := read16_of_liesAt hlx
  have hy : h.read16 (h.s + 6#16) = st.y := read16_of_liesAt hly
  have hu : h.read16 (h.s + 8#16) = st.u := read16_of_liesAt hlu
  have hpc : h.read16 (h.s + 10#16) = st.pc := read16_of_liesAt hlpc
  have he : (h.read8 h.s).getLsbD 7 = true := by rw [hcc, getLsbD_toByte_seven]
  obtain ⟨hentire, -⟩ := returnFromInterrupt h
  obtain ⟨t, hexec, rfl⟩ := hentire he
  rw [hexec, hcc, CC.ofByte_toByte, ha, hb, hdp, hx, hy, hu, hpc]

/-- RTI on a subset frame of `st` (R410, R442). -/
theorem exec_rti_of_subsetFrame {st h : State} (hlies : LiesAt h h.s (subsetFrame st)) :
    exec .rti h = .next { h with cc := { st.cc with e := false }, pc := st.pc, s := h.s + 3#16 } := by
  obtain ⟨-, hcc, hlpc⟩ := liesAt_cons.mp hlies
  have hpc : h.read16 (h.s + 1#16) = st.pc := read16_of_liesAt hlpc
  have he : (h.read8 h.s).getLsbD 7 = false := by rw [hcc, getLsbD_toByte_seven]
  obtain ⟨-, hsubset⟩ := returnFromInterrupt h
  obtain ⟨t, hexec, rfl⟩ := hsubset he
  rw [hexec, hcc, CC.ofByte_toByte, hpc]

/-- A frame stored below S in RAM lies at S in every state with the S, the memory and the platform of the entry. -/
theorem liesAt_of_frame {st t h : State} {n : Word} {frame : List Byte} (hstored : Stored st t (st.s - n) frame)
    (hsp : t.s = st.s - n) (hram : AllRam st t.s frame.length) (ht : t.platform = st.platform) (hs : h.s = t.s)
    (hmem : h.mem = t.mem) (hplatform : h.platform = st.platform) : LiesAt h h.s frame ∧ h.s + n = st.s := by
  obtain ⟨hbytes, -⟩ := hstored
  rw [hsp] at hram
  rw [hs, hsp]
  exact ⟨liesAt_of_storedAt hbytes hram ht hmem (hplatform.trans ht.symm), BitVec.sub_add_cancel _ _⟩

/-- Every event but FIRQ stacks the entire state (R431). -/
theorem entire_of_ne_firq {ev : Event} (h : ev ≠ .firq) : ev.entire = true := by
  cases ev with
  | firq => exact absurd rfl h
  | nmi | irq | swi | swi2 | swi3 => rfl

/-- Settles O36, by the frame that the entry of the event stores. -/
theorem entryThenReturn : Obligations.EntryThenReturn := by
  intro st ev h hram hs hmem hplatform
  obtain ⟨hsame, -⟩ := State.surroundings_eq_iff.mp (st.surroundings_takeException ev)
  by_cases hev : ev = .firq
  · subst hev
    obtain ⟨hstored, hframe⟩ := takeException_firq_post st
    obtain ⟨hlies, hback⟩ :=
      liesAt_of_frame hstored (congrArg State.s hframe) hram hsame hs hmem hplatform
    refine ⟨_, exec_rti_of_subsetFrame hlies, ?_⟩
    rw [hback]
    rfl
  · obtain ⟨hstored, hframe⟩ := takeException_entirePost st (entire_of_ne_firq hev)
    rw [if_neg hev] at hram
    obtain ⟨hlies, hback⟩ :=
      liesAt_of_frame hstored (congrArg State.s hframe) hram hsame hs hmem hplatform
    refine ⟨_, exec_rti_of_entireFrame hlies, ?_⟩
    simp only [hback, hev, if_false, ne_eq, not_false_eq_true, decide_true]

end Sys2Proof.Proofs
end

section
/-! The end of the two waits (60_exceptions.md R447 to R449): which request a sample makes, and what the Sync and the
CwaiWait state do with it. -/

namespace Sys2Proof.Proofs

open Sys2Proof.Machine Sys2Proof.Claims

-- Elaborated one after another: each waiting theorem takes a thread of its own, and the check bounds their stacks.
set_option Elab.async false

/-! ### The request of a sample -/

section Requests

variable {st : State} {p : Sample}

/-- An armed edge is latched whatever the parameter of D10 is. -/
theorem latched_and_armed_iff : ((st.latchNmi p).nmiPending && st.nmiArmed) = true ↔ NmiRequested st p := by
  rw [State.latchNmi_nmiPending, NmiRequested]
  cases st.nmiArmed <;> simp

theorem latchAfter_of_nmi (h : NmiRequested st p) : latchAfter st p = true :=
  Bool.and_elim_left (latched_and_armed_iff.mpr h)

/-- NMI comes first (R434). -/
theorem request_of_nmi (h : NmiRequested st p) : (st.latchNmi p).request p = some .nmi :=
  if_pos (latched_and_armed_iff.mpr h)

/-- FIRQ comes second. -/
theorem request_of_firq (hnmi : ¬NmiRequested st p) (h : FirqRequested st p) :
    (st.latchNmi p).request p = some .firq := by
  obtain ⟨hline, hmask⟩ := h
  have hf : (p.firq && !st.cc.f) = true := by rw [hline, hmask]; rfl
  exact (if_neg (mt latched_and_armed_iff.mp hnmi)).trans (if_pos hf)

/-- IRQ comes last. -/
theorem request_of_irq (hnmi : ¬NmiRequested st p) (hfirq : ¬FirqRequested st p) (h : IrqRequested st p) :
    (st.latchNmi p).request p = some .irq := by
  obtain ⟨hline, hmask⟩ := h
  have hf : ¬(p.firq && !st.cc.f) = true := by simpa [FirqRequested] using hfirq
  have hi : (p.irq && !st.cc.i) = true := by rw [hline, hmask]; rfl
  exact (if_neg (mt latched_and_armed_iff.mp hnmi)).trans ((if_neg hf).trans (if_pos hi))

end Requests

/-! ### Taking a hardware interrupt -/

/-- Taking an NMI clears its latch (R432, R441). -/
theorem enterInterrupt_nmi_post (s : State) :
    EntirePost true true 0xFFFC#16 { s with nmiPending := false } (s.enterInterrupt .nmi) := by
  have hlatch : s.acknowledge .nmi = { s with nmiPending := false } :=
    congrArg (fun b => { s with nmiPending := b }) (Bool.and_false s.nmiPending)
  rw [State.enterInterrupt, hlatch]
  exact takeException_entirePost _ (ev := .nmi) rfl

/-- FIRQ and IRQ have no latch to clear (R41). -/
theorem acknowledge_of_ne_nmi (s : State) {ev : Event} (hev : (ev != .nmi) = true) : s.acknowledge ev = s := by
  rw [State.acknowledge, hev, Bool.and_true]

theorem enterInterrupt_firq_post (s : State) : SubsetPost s (s.enterInterrupt .firq) := by
  rw [State.enterInterrupt, acknowledge_of_ne_nmi s rfl]
  exact takeException_firq_post s

theorem enterInterrupt_irq_post (s : State) : EntirePost true false 0xFFF8#16 s (s.enterInterrupt .irq) := by
  rw [State.enterInterrupt, acknowledge_of_ne_nmi s rfl]
  exact takeException_entirePost s (ev := .irq) rfl

/-! ### The Sync state -/

/-- The state in which execution goes on after Sync: a free bit is drawn for each pulse that may be too short (D18). -/
def wokenFromSync (st : State) : State :=
  { interrupted st (latchAfter st st.sample) with
    draws := st.draws + st.sample.firqBrief.toNat + st.sample.irqBrief.toNat }

/-- Without such a pulse no bit is drawn. -/
theorem wokenFromSync_of_not_brief {st : State} (hf : st.sample.firqBrief = false) (hi : st.sample.irqBrief = false) :
    wokenFromSync st = interrupted st (latchAfter st st.sample) := by
  rw [wokenFromSync, hf, hi]
  rfl

/-- The lines without a pulse that may be too short count as they are. -/
theorem synchronized_of_not_brief (s : State) {p : Sample} (hf : p.firqBrief = false) (hi : p.irqBrief = false) :
    s.synchronized p = p := by
  have hfirq : (p.firq && (!p.firqBrief || Config.briefPulseTaken s.draws)) = p.firq := by
    rw [hf]
    exact Bool.and_true _
  have hirq : (p.irq && (!p.irqBrief || Config.briefPulseTaken (s.draws + p.firqBrief.toNat))) = p.irq := by
    rw [hi]
    exact Bool.and_true _
  rw [State.synchronized, hfirq, hirq]

/-- A line that counts is low. -/
theorem firqRequested_of_synchronized {s st : State} {p : Sample} (h : FirqRequested st (s.synchronized p)) :
    FirqRequested st p := by
  obtain ⟨hline, hmask⟩ := h
  exact ⟨Bool.and_elim_left hline, hmask⟩

theorem irqRequested_of_synchronized {s st : State} {p : Sample} (h : IrqRequested st (s.synchronized p)) :
    IrqRequested st p := by
  obtain ⟨hline, hmask⟩ := h
  exact ⟨Bool.and_elim_left hline, hmask⟩

section Sync

variable {st : State} (hrun : st.run = .sync) (hfree : Free st.sample)

include hrun hfree

/-- Any of NMI latched, FIRQ low and IRQ low ends the wait (R411). -/
theorem step_sync_wakes (hwake : latchAfter st st.sample = true ∨ st.sample.firq = true ∨ st.sample.irq = true) :
    step st = .next ((st.beginStep.latchNmi st.sample).leaveSync st.sample) := by
  obtain ⟨hreset, hhalt⟩ := hfree
  have hends : ((st.beginStep.latchNmi st.sample).nmiPending || st.sample.firq || st.sample.irq) = true := by
    rw [Bool.or_eq_true, Bool.or_eq_true, or_assoc]
    exact hwake
  have hcontrol : st.control = .done ((st.beginStep.latchNmi st.sample).leaveSync st.sample) := by
    simp only [State.control, hrun, State.inSync, hreset, hhalt, hends, Bool.false_eq_true, if_false, if_true]
  rw [step, hcontrol]

/-- Otherwise it goes on. -/
theorem step_sync_waits (hlatch : latchAfter st st.sample = false) (hfirq : st.sample.firq = false)
    (hirq : st.sample.irq = false) : step st = .next st.beginStep := by
  obtain ⟨hreset, hhalt⟩ := hfree
  have hlatch' : (st.beginStep.latchNmi st.sample).nmiPending = false := hlatch
  have hcontrol : st.control = .done st.beginStep := by
    simp only [State.control, hrun, State.inSync, hreset, hhalt, hlatch', hfirq, hirq, Bool.or_self,
      Bool.false_eq_true, if_false]
  rw [step, hcontrol]

/-- The lines, as they count for an interrupt, ask for one: it is taken by its normal sequence (R448). -/
theorem step_sync_takes {ev : Event}
    (hwake : latchAfter st st.sample = true ∨ st.sample.firq = true ∨ st.sample.irq = true)
    (hrequest : (st.latchNmi st.sample).request (st.synchronized st.sample) = some ev) :
    step st = .next ((wokenFromSync st).enterInterrupt ev) := by
  have hrequest' : (st.beginStep.latchNmi st.sample).request
      ((st.beginStep.latchNmi st.sample).synchronized st.sample) = some ev := hrequest
  rw [step_sync_wakes hrun hfree hwake, State.leaveSync, hrequest']
  rfl

/-- They ask for none: execution goes on (R448). -/
theorem step_sync_goes_on
    (hwake : latchAfter st st.sample = true ∨ st.sample.firq = true ∨ st.sample.irq = true)
    (hrequest : (st.latchNmi st.sample).request (st.synchronized st.sample) = none) :
    step st = .next (wokenFromSync st) := by
  have hrequest' : (st.beginStep.latchNmi st.sample).request
      ((st.beginStep.latchNmi st.sample).synchronized st.sample) = none := hrequest
  rw [step_sync_wakes hrun hfree hwake, State.leaveSync, hrequest']
  rfl

/-- With a pulse that may be too short: the request that counts is one of those that the lines make, or none. -/
theorem step_sync_brief (hnmi : ¬NmiRequested st st.sample)
    (hline : st.sample.firq = true ∨ st.sample.irq = true) :
    ∃ t, step st = .next t ∧
      ((FirqRequested st st.sample ∧ SubsetPost (wokenFromSync st) t) ∨
        (IrqRequested st st.sample ∧ EntirePost true false 0xFFF8#16 (wokenFromSync st) t) ∨
        t = wokenFromSync st) := by
  have hnmi' : ¬NmiRequested st (st.synchronized st.sample) := hnmi
  by_cases hfirq : FirqRequested st (st.synchronized st.sample)
  · exact ⟨_, step_sync_takes hrun hfree (.inr hline) (request_of_firq hnmi' hfirq),
      .inl ⟨firqRequested_of_synchronized hfirq, enterInterrupt_firq_post _⟩⟩
  by_cases hirq : IrqRequested st (st.synchronized st.sample)
  · exact ⟨_, step_sync_takes hrun hfree (.inr hline) (request_of_irq hnmi' hfirq hirq),
      .inr (.inl ⟨irqRequested_of_synchronized hirq, enterInterrupt_irq_post _⟩)⟩
  · exact ⟨_, step_sync_goes_on hrun hfree (.inr hline) (request_eq_none hnmi' hfirq hirq), .inr (.inr rfl)⟩

end Sync

/-- Settles O44: without a brief pulse the lines count as they are, and each request is taken or masked; a brief pulse
counts or not. -/
theorem syncWakes : Obligations.SyncWakes := by
  intro st hrun hfree
  refine ⟨fun hf hi => ?_, fun _ hnmi hline => ?_, fun hpending hedge hfirq hirq => ?_⟩
  · have hlines : st.synchronized st.sample = st.sample := synchronized_of_not_brief st hf hi
    have htakes {ev : Event} (hwake : latchAfter st st.sample = true ∨ st.sample.firq = true ∨ st.sample.irq = true)
        (hrequest : (st.latchNmi st.sample).request st.sample = some ev) :
        step st = .next ((interrupted st (latchAfter st st.sample)).enterInterrupt ev) := by
      rw [← wokenFromSync_of_not_brief hf hi]
      exact step_sync_takes hrun hfree hwake (by rw [hlines, hrequest])
    refine ⟨fun hnmi => ?_, fun hnmi hfirq => ?_, fun hnmi hfirq hirq => ?_, fun hnmi hfirq hirq hline => ?_⟩
    · exact ⟨_, htakes (.inl (latchAfter_of_nmi hnmi)) (request_of_nmi hnmi),
        enterInterrupt_nmi_post (interrupted st (latchAfter st st.sample))⟩
    · exact ⟨_, htakes (.inr (.inl hfirq.1)) (request_of_firq hnmi hfirq), enterInterrupt_firq_post _⟩
    · exact ⟨_, htakes (.inr (.inr hirq.1)) (request_of_irq hnmi hfirq hirq), enterInterrupt_irq_post _⟩
    · rw [← wokenFromSync_of_not_brief hf hi]
      exact step_sync_goes_on hrun hfree (.inr hline) (by rw [hlines, request_eq_none hnmi hfirq hirq])
  · obtain ⟨t, hstep, hpost⟩ := step_sync_brief hrun hfree hnmi hline
    exact ⟨t, _, hstep, hpost⟩
  · refine step_sync_waits hrun hfree ?_ hfirq hirq
    rw [latchAfter, State.latchNmi_nmiPending, hpending, hedge, Bool.false_and, Bool.or_false]

/-! ### The CwaiWait state -/

section Cwai

variable {st : State} (hrun : st.run = .cwaiWait) (hfree : Free st.sample)

include hrun hfree

/-- A request ends the wait with the masks and the vector of its event, nothing being stacked (R449). -/
theorem step_cwai_of_request {ev : Event} (hrequest : (st.latchNmi st.sample).request st.sample = some ev) :
    step st = .next ((interrupted st (latchAfter st st.sample && ev != .nmi)).enterHandler ev) := by
  obtain ⟨hreset, hhalt⟩ := hfree
  have hrequest' : (st.beginStep.latchNmi st.sample).request st.sample = some ev := hrequest
  have hcontrol : st.control = .done ((interrupted st (latchAfter st st.sample && ev != .nmi)).enterHandler ev) := by
    simp only [State.control, hrun, State.inCwai, hreset, hhalt, hrequest', Bool.false_eq_true, if_false]
    rfl
  rw [step, hcontrol]

/-- Without a request it goes on. -/
theorem step_cwai_waits (hrequest : (st.latchNmi st.sample).request st.sample = none) :
    step st = .next (st.beginStep.latchNmi st.sample) := by
  obtain ⟨hreset, hhalt⟩ := hfree
  have hrequest' : (st.beginStep.latchNmi st.sample).request st.sample = none := hrequest
  have hcontrol : st.control = .done (st.beginStep.latchNmi st.sample) := by
    simp only [State.control, hrun, State.inCwai, hreset, hhalt, hrequest', Bool.false_eq_true, if_false]
  rw [step, hcontrol]

end Cwai

/-- Settles O45, by the request that the sample makes. -/
theorem cwaiWakes : Obligations.CwaiWakes := by
  intro st hrun hfree
  refine ⟨fun hnmi => ?_, fun hnmi hfirq => ?_, fun hnmi hfirq hirq => ?_, fun hnmi hfirq hirq => ?_⟩
  · have hlatch : (latchAfter st st.sample && Event.nmi != .nmi) = false := Bool.and_false _
    rw [step_cwai_of_request hrun hfree (request_of_nmi hnmi), hlatch,
      enterHandler_eq _ (Bool.or_true _) (Bool.or_true _)]
    rfl
  · have hlatch : (latchAfter st st.sample && Event.firq != .nmi) = latchAfter st st.sample := Bool.and_true _
    rw [step_cwai_of_request hrun hfree (request_of_firq hnmi hfirq), hlatch,
      enterHandler_eq _ (Bool.or_true _) (Bool.or_true _)]
    rfl
  · have hlatch : (latchAfter st st.sample && Event.irq != .nmi) = latchAfter st st.sample := Bool.and_true _
    rw [step_cwai_of_request hrun hfree (request_of_irq hnmi hfirq hirq), hlatch,
      enterHandler_eq _ (Bool.or_true _) (Bool.or_false _)]
    rfl
  · exact step_cwai_waits hrun hfree (request_eq_none hnmi hfirq hirq)

end Sys2Proof.Proofs
end
